-- ==== Sys2Proof/Word.lean ====
section
/-! DEFINITION. The widths of the engine (00_scope.md R7, R10; 10_state.md R20).
A 16-bit bit word is the width of every register and of all cipher arithmetic; a register index has 8 bits.
All values are unsigned (R13); bit `N-1` of an `N`-bit vector is its leftmost, most significant bit (R11). -/

namespace Sys2Proof

/-- A bit word (`WORD_BITS` = 16, R7): a register, a command word, a subkey. -/
abbrev Word := BitVec 16

/-- A register index of the host port (20_memory.md R50). -/
abbrev Index := BitVec 8

/-- A 64-bit block (`BLOCK_BITS`, R7). -/
abbrev Block := BitVec 64

/-- A 128-bit key (`KEY_BITS`, R7). -/
abbrev Key := BitVec 128

/-- The four words of a block, word 0 the most significant (10_state.md R21, R23). -/
abbrev Quad := Vector Word 4

/-- A subkey schedule: exactly `NSUB` = 52 words (10_state.md R26, R36: the length by construction). -/
abbrev Schedule := Vector Word 52

end Sys2Proof
end

