-- ==== Sys2Proof/Syntax.lean ====
section
/-! DEFINITION. The eleven commands, one constructor per row of opcode_table.json (30_encoding.md R71).
A command word has no register, immediate or addressing-mode field (R72), so no constructor has an operand. -/

namespace Sys2Proof

/-- A command of the engine (30_encoding.md R71). -/
inductive Instr where
  /-- `XOR`, 41_primitives.md R101. -/
  | xor
  /-- `ADD`, 41_primitives.md R102. -/
  | add
  /-- `MUL`, 41_primitives.md R103. -/
  | mul
  /-- `ADDINV`, 41_primitives.md R104. -/
  | addinv
  /-- `MULINV`, 41_primitives.md R105. -/
  | mulinv
  /-- `KSE`, 42_key_scheduler.md R132. -/
  | kse
  /-- `KSD`, 42_key_scheduler.md R137. -/
  | ksd
  /-- `TFE`, 43_round_engine.md R153. -/
  | tfe
  /-- `TFD`, 43_round_engine.md R154. -/
  | tfd
  /-- `ENCRYPT`, 44_block_codec.md R173. -/
  | encrypt
  /-- `DECRYPT`, 44_block_codec.md R174. -/
  | decrypt
  deriving DecidableEq, Repr

/-- The number of the component a command belongs to: the `UNIT` field (30_encoding.md R70). -/
inductive Component where
  /-- UNIT 1. -/
  | primitives
  /-- UNIT 2. -/
  | keyScheduler
  /-- UNIT 3. -/
  | roundEngine
  /-- UNIT 4. -/
  | blockCodec
  deriving DecidableEq, Repr

/-- Why a 16-bit word is no command (30_encoding.md R75). The engine reports all three as `IllegalCommand`. -/
inductive Reject where
  /-- `RSV` is not 0x00. -/
  | reservedNotZero
  /-- `RSV` is 0 and `UNIT` is 0 or 5 to 15. -/
  | undefinedUnit
  /-- `RSV` is 0, `UNIT` is defined and `FUNC` is unused in it. -/
  | unusedFunc
  deriving DecidableEq, Repr

end Sys2Proof
end

