-- ==== Sys2Proof/WellFormed.lean ====
section
/-! DEFINITION. When a command word is well formed (30_encoding.md R70, R75): its three fields, one check each.
A decoded command has no operand (R72), so every term of `Instr` is well formed; what can be ill formed is a word. -/

namespace Sys2Proof

/-- Field `RSV`, bits 15:8 (R70). -/
def rsvField (w : Word) : BitVec 8 := w.extractLsb' 8 8
/-- Field `UNIT`, bits 7:4 (R70). -/
def unitField (w : Word) : BitVec 4 := w.extractLsb' 4 4
/-- Field `FUNC`, bits 3:0 (R70). -/
def funcField (w : Word) : BitVec 4 := w.extractLsb' 0 4

/-- `RSV` "must be 0x00" (R70). -/
def rsvOk (w : Word) : Bool := rsvField w == 0x00#8

/-- `UNIT` names a component: 1 to 4 (R70, R75). -/
def unitOk (w : Word) : Bool := 1 ≤ (unitField w).toNat && (unitField w).toNat ≤ 4

/-- The functions a unit has, numbered from 0 (R71): five, two, two, two. -/
def funcCount (unit : BitVec 4) : Nat :=
  match unit.toNat with
  | 1 => 5
  | 2 => 2
  | 3 => 2
  | 4 => 2
  | _ => 0

/-- `FUNC` is used in the word's unit (R75). -/
def funcOk (w : Word) : Bool := (funcField w).toNat < funcCount (unitField w)

/-- A word is a command's exactly when all three of its fields are right (R75). -/
def wordWellFormed (w : Word) : Bool := rsvOk w && unitOk w && funcOk w

/-- A command has no operand field, so it has nothing to be checked (R72). -/
def Instr.wellFormed : Instr → Bool
  | .xor | .add | .mul | .addinv | .mulinv | .kse | .ksd | .tfe | .tfd | .encrypt | .decrypt => true

end Sys2Proof
end

