-- ==== Sys2Proof/Decode.lean ====
section
/-! DEFINITION. The decoder (30_encoding.md R71, R75, R81), and after it the encoder (R70).
The decoder compares the whole word with eleven values; the encoder puts the three fields together. They are written
from different tables of the spec, so their agreement says something. -/

namespace Sys2Proof

/-- Which of the ways of R75 an illegal word is illegal in. -/
def rejectReason (w : Word) : Reject :=
  if !rsvOk w then .reservedNotZero
  else if !unitOk w then .undefinedUnit
  else .unusedFunc

/-- "compare the 16-bit word for equality with the eleven `match` values; anything else is `IllegalCommand`" (R81). -/
def decode (w : Word) : Except Reject Instr :=
  if w = 0x0010#16 then .ok .xor
  else if w = 0x0011#16 then .ok .add
  else if w = 0x0012#16 then .ok .mul
  else if w = 0x0013#16 then .ok .addinv
  else if w = 0x0014#16 then .ok .mulinv
  else if w = 0x0020#16 then .ok .kse
  else if w = 0x0021#16 then .ok .ksd
  else if w = 0x0030#16 then .ok .tfe
  else if w = 0x0031#16 then .ok .tfd
  else if w = 0x0040#16 then .ok .encrypt
  else if w = 0x0041#16 then .ok .decrypt
  else .error (rejectReason w)

/-- The component of a command: the section 4.`UNIT` that defines its function (R70). -/
def Instr.component : Instr → Component
  | .xor | .add | .mul | .addinv | .mulinv => .primitives
  | .kse | .ksd => .keyScheduler
  | .tfe | .tfd => .roundEngine
  | .encrypt | .decrypt => .blockCodec

/-- The value of `UNIT` (R70). -/
def Component.unit : Component → BitVec 4
  | .primitives => 1#4
  | .keyScheduler => 2#4
  | .roundEngine => 3#4
  | .blockCodec => 4#4

/-- The value of `FUNC`: the function within its component (R70, R71). -/
def Instr.func : Instr → BitVec 4
  | .xor => 0#4
  | .add => 1#4
  | .mul => 2#4
  | .addinv => 3#4
  | .mulinv => 4#4
  | .kse => 0#4
  | .ksd => 1#4
  | .tfe => 0#4
  | .tfd => 1#4
  | .encrypt => 0#4
  | .decrypt => 1#4

/-- The command word `RSV ‖ UNIT ‖ FUNC` (R70). -/
def encode (i : Instr) : Word := 0x00#8 ++ (i.component.unit ++ i.func)

/-- The decoder on a word numbered as opcode_table.json numbers it: a command is one 16-bit word (R70), so the bits of
the word are the low 16 of `w`, and bits at and above `nbits` are 0. -/
def decodeTableWord (nbits w : Nat) : Option Instr :=
  match decode (BitVec.ofNat 16 (w % 2 ^ nbits)) with
  | .ok i => some i
  | .error _ => none

end Sys2Proof
end

