-- ==== Sys2Proof/Config.lean ====
section
/-! DEFINITION. The fixed constants (00_scope.md R7) and the two parameters of an engine instance (R8, R9).
The parameters are the whole variability of the engine (R1). -/

namespace Sys2Proof

/-- `WORD_BITS`, the width of a bit word (R7). -/
abbrev wordBits : Nat := 16
/-- `BLOCK_BITS`, the width of a block, four words (R7). -/
abbrev blockBits : Nat := 64
/-- `KEY_BITS`, the width of a key, eight words (R7). -/
abbrev keyBits : Nat := 128
/-- `NSUB`, the number of words in a subkey schedule (R7). -/
abbrev nSub : Nat := 52
/-- `NROUNDS`, the full rounds; a ninth half-round follows (R7). -/
abbrev nRounds : Nat := 8
/-- `ROT`, the left rotation between key-schedule extractions (R7). -/
abbrev rot : Nat := 25
/-- `NEXTRACT`, the number of extractions of eight words (R7). -/
abbrev nExtract : Nat := 7
/-- `M_ADD` = 2^16, the modulus of addition and of the additive inverse (R7). -/
abbrev mAdd : Nat := 65536
/-- `M_MUL` = 2^16 + 1, the modulus of multiplication and of the multiplicative inverse (R7). -/
abbrev mMul : Nat := 65537

/-- `MUL_ZERO_MODE` (R8): what a zero operand stands for in a multiplication (41_primitives.md R103). -/
inductive MulZeroMode where
  /-- The word 0 multiplies as the integer 0. -/
  | literal
  /-- The word 0 stands for 65536. -/
  | textbook
  deriving DecidableEq, Repr

/-- The parameters of one engine instance, fixed when it is made (R8, R9; 70_reset_and_hazards.md R233). -/
structure Params where
  /-- `MUL_ZERO_MODE` (R8). -/
  mulZeroMode : MulZeroMode
  /-- `MULINV_ZERO` (R9): the result of `mulinv` on the word 0. -/
  mulinvZero : Word
  deriving DecidableEq, Repr

/-- The defaults the spec gives: `LITERAL` (R8) and `0x0000` (R9). -/
def Params.default : Params := { mulZeroMode := .literal, mulinvZero := 0x0000#16 }

end Sys2Proof
end

