-- ==== Sys2Proof/Machine/State.lean ====
section
/-! DEFINITION. The state of the engine (10_state.md R20), the host beside it, the reasons a step could stop, reset.
The registers are the 127 of R20 "and nothing else"; `params` is the configuration (00_scope.md R8, R9), and the last
five fields of `State` are the MODEL's own: the host agent (notes/assumptions/2, 3 and 10). -/

namespace Sys2Proof.Machine

/-- A register of R20. -/
inductive Reg where
  /-- `CMD`, R28. -/
  | cmd
  /-- `STATUS`, R29. -/
  | status
  /-- `BLK_LEN`, R30. -/
  | blkLen
  /-- `KEY_LEN`, R31. -/
  | keyLen
  /-- `X0` to `X3`, R21. -/
  | x (i : Fin 4)
  /-- `K0` to `K7`, R22. -/
  | k (i : Fin 8)
  /-- `Y0` to `Y3`, R23. -/
  | y (i : Fin 4)
  /-- `OPA`, R24. -/
  | opa
  /-- `OPB`, R24. -/
  | opb
  /-- `RES`, R25. -/
  | res
  /-- `ZE0` to `ZE51`, R26. -/
  | ze (i : Fin 52)
  /-- `ZD0` to `ZD51`, R27. -/
  | zd (i : Fin 52)
  deriving DecidableEq, Repr

/-- Host access to a register (R20, the table's column). -/
inductive Access where
  /-- The host may read and write. -/
  | rw
  /-- The host may read; a host write is discarded. -/
  | ro
  deriving DecidableEq, Repr

/-- The error kinds (60_exceptions.md R200). An error is no `Fault`: it is a value of `STATUS`, and the machine goes on. -/
inductive ErrKind where
  /-- Operand widths disagree in `xor` or `split`; no command can raise it (R201). -/
  | lengthMismatch
  /-- `BLK_LEN` is not 64. -/
  | invalidBlockLength
  /-- `KEY_LEN` is not 128. -/
  | invalidKeyLength
  /-- The word in `CMD` is none of the eleven opcodes. -/
  | illegalCommand
  deriving DecidableEq, Repr

/-- The two agents (00_scope.md section 6). -/
inductive Agent where
  | host
  | engine
  deriving DecidableEq, Repr

/-- One line of a host script (30_encoding.md R79, R80). A line that issues a command is the write of `CMD`. -/
inductive HostLine where
  /-- `WR`: `MemWrite(a, 1, v)` (20_memory.md R53). -/
  | wr (a : Index) (v : Word)
  /-- `RD`: `MemRead(a, 1)` (20_memory.md R52). -/
  | rd (a : Index)
  /-- `WAIT`: repeat `s = RD STATUS` until BUSY is clear (R80). -/
  | wait
  /-- The reset input (70_reset_and_hazards.md R230); not a port transaction. -/
  | reset
  /-- `if s[2] = 1: the call failed ... else: ...` (70_reset_and_hazards.md R236): the host's branch on the word its `WAIT`
  read last; not a port transaction. -/
  | check
  /-- `result = RD Y0 ‖ RD Y1 ‖ RD Y2 ‖ RD Y3` (R236), the joining after the four reads; not a port transaction. -/
  | result
  deriving DecidableEq, Repr

/-- What a call of the boundary gives its caller (70_reset_and_hazards.md R236). -/
inductive CallAnswer where
  /-- The call failed with the error kind whose code is `s[7:4]`; there is no result. -/
  | failed (code : BitVec 4)
  /-- The call's result, 64 bits. -/
  | result (block : Block)
  deriving DecidableEq, Repr

/-- The state of one engine instance and of the host that drives it. -/
structure State where
  /-- Configuration (00_scope.md R8, R9), no register: no command, transaction or reset changes it
  (70_reset_and_hazards.md R233; notes/assumptions/1). -/
  params : Params
  /-- `CMD`, index 00 (R28). -/
  cmd : Word
  /-- `STATUS`, index 01 (R29): software reads it whole, so it is a word with named accessors (Machine/Flags.lean). -/
  status : Word
  /-- `BLK_LEN`, index 02 (R30). -/
  blkLen : Word
  /-- `KEY_LEN`, index 03 (R31). -/
  keyLen : Word
  /-- `X0..X3`, indices 04 to 07, `X0` most significant (R21). -/
  x : Quad
  /-- `K0..K7`, indices 08 to 0F, `K0` most significant (R22). -/
  k : Vector Word 8
  /-- `Y0..Y3`, indices 10 to 13, `Y0` most significant (R23). -/
  y : Quad
  /-- `OPA`, index 14 (R24). -/
  opa : Word
  /-- `OPB`, index 15 (R24). -/
  opb : Word
  /-- `RES`, index 16 (R25). -/
  res : Word
  /-- `ZE0..ZE51`, indices 40 to 73 (R26). -/
  ze : Schedule
  /-- `ZD0..ZD51`, indices 80 to B3 (R27). -/
  zd : Schedule
  /-- MODEL: the lines the host has still to perform (70_reset_and_hazards.md R251; notes/assumptions/3). -/
  script : List HostLine
  /-- MODEL: who moves when both agents could; empty means the engine (notes/assumptions/2). -/
  turns : List Agent
  /-- MODEL: the values the `RD` lines returned, oldest first (R251; notes/assumptions/3). -/
  reads : List Word
  /-- MODEL: the STATUS word the host's `WAIT` read last, the `s` of R80 and R236 (notes/assumptions/10). -/
  polled : Word
  /-- MODEL: what the calls made so far gave their caller, oldest first (R236; notes/assumptions/10). -/
  calls : List CallAnswer
  deriving DecidableEq, Repr

/-- Nothing stops this machine: every command completes, the engine cannot hang, and an error is a status value
(70_reset_and_hazards.md R238, 60_exceptions.md R205). So there is no reason for a fault, and no constructor. -/
inductive Fault where
  deriving DecidableEq, Repr

/-- A step has no ground to refuse: every command of the table has its meaning. -/
inductive Refusal where
  /-- An instruction without a meaning yet. Nobody raises it: every arm of `exec` calls a meaning. Safe. -/
  | notModelled (mnemonic : String)
  deriving DecidableEq, Repr

/-- The machine right after reset: every register is 0x0000 (10_state.md R40, 70_reset_and_hazards.md R230), the
parameters are the spec's defaults (00_scope.md R8, R9), and the host has done nothing and has no line waiting (notes/assumptions/3 and 10). -/
def State.reset : State where
  params := Params.default
  cmd := 0x0000#16
  status := 0x0000#16
  blkLen := 0x0000#16
  keyLen := 0x0000#16
  x := Vector.replicate 4 0x0000#16
  k := Vector.replicate 8 0x0000#16
  y := Vector.replicate 4 0x0000#16
  opa := 0x0000#16
  opb := 0x0000#16
  res := 0x0000#16
  ze := Vector.replicate 52 0x0000#16
  zd := Vector.replicate 52 0x0000#16
  script := []
  turns := []
  reads := []
  polled := 0x0000#16
  calls := []

end Sys2Proof.Machine
end

