-- ==== Sys2Proof/Machine/Arith.lean ====
section
/-! DEFINITION. The functions of 41_primitives.md: pure, no state read or written (R100).
Integers inside are unbounded and every result is reduced to 16 bits where the rule says so. -/

namespace Sys2Proof.Machine

/-! ### Functions without a command, at any width -/

/-- `to_int(v)` (R110). -/
def toInt {n : Nat} (v : BitVec n) : Nat := v.toNat

/-- `to_bits(n, N)` for `0 <= n < 2^N` (R110); the rule gives it no meaning elsewhere (notes/assumptions/7). -/
def toBits (n N : Nat) (h : n < 2 ^ N) : BitVec N := BitVec.ofNatLT n h

/-- `xor(a, b)` on bit vectors of any widths: `LengthMismatch` if they differ (R101). -/
def xorBits {wa wb : Nat} (a : BitVec wa) (b : BitVec wb) : Except ErrKind (BitVec wa) :=
  if h : wb = wa then .ok (a ^^^ b.cast h) else .error .lengthMismatch

/-- `rotl1(v)`: every bit moves one place left and the leftmost re-enters on the right (R109). -/
def rotl1 {n : Nat} (v : BitVec n) : BitVec n := (v <<< 1) ||| (v >>> (n - 1))

/-- `rotl(v, k)`: "exact repetition-based rotation", `rotl1` applied `k` times (R109). -/
def rotl {n : Nat} (v : BitVec n) : Nat → BitVec n
  | 0 => v
  | k + 1 => rotl (rotl1 v) k

/-- The chunks of `split`: `c_j = v[N-1-j*width : N-(j+1)*width]`, chunk 0 leftmost (R111). -/
def chunks {n : Nat} (v : BitVec n) (parts width : Nat) : List (BitVec width) :=
  (List.range parts).map fun j => v.extractLsb' (n - (j + 1) * width) width

/-- `split(v, parts, width)`: `LengthMismatch` unless `N = parts * width` (R111). -/
def split {n : Nat} (v : BitVec n) (parts width : Nat) : Except ErrKind (List (BitVec width)) :=
  if n ≠ parts * width then .error .lengthMismatch else .ok (chunks v parts width)

/-! ### The five operations on words -/

/-- `xor` on two words, whose widths never differ (R101). -/
def xor16 (a b : Word) : Word := a ^^^ b

/-- `add(a, b) = (a + b) mod 65536` (R102). -/
def add (a b : Word) : Word := BitVec.ofNat 16 ((a.toNat + b.toNat) % mAdd)

/-- The integer an operand of `mul` stands for (R103). -/
def mulOperand (m : MulZeroMode) (a : Word) : Nat :=
  match m with
  | .literal => a.toNat
  | .textbook => if a = 0x0000#16 then 65536 else a.toNat

/-- The residue `p` of `mul`, which can be 65536 (R103). -/
def mulResidue (m : MulZeroMode) (a b : Word) : Nat := (mulOperand m a * mulOperand m b) % mMul

/-- `mul(a, b)`: the residue delivered as 16 bits, 65536 as 0x0000 (R103). -/
def mul (p : Params) (a b : Word) : Word := BitVec.ofNat 16 (mulResidue p.mulZeroMode a b % 65536)

/-- `addinv(a) = (65536 - a) mod 65536` (R104). -/
def addinv (a : Word) : Word := BitVec.ofNat 16 ((mAdd - a.toNat) % mAdd)

/-- The loop of `euclid_inverse` (R108), with fuel: the remainders are naturals, the coefficients integers. -/
def euclidLoop : Nat → Nat → Nat → Int → Int → Int
  | 0, _, _, t0, _ => t0
  | fuel + 1, r0, r1, t0, t1 =>
    if r1 = 0 then t0
    else
      let q := r0 / r1
      euclidLoop fuel r1 (r0 - q * r1) t1 (t0 - q * t1)

/-- `euclid_inverse(a)` (R108). `r1` starts at `a` and falls in every pass, so fuel `a + 1` is never used up. -/
def euclidInverse (a : Nat) : Nat :=
  let t0 := euclidLoop (a + 1) mMul a 0 1
  (if t0 < 0 then t0 + mMul else t0).toNat

/-- `mulinv(a)` (R105). -/
def mulinv (p : Params) (a : Word) : Word :=
  if a = 0x0000#16 then p.mulinvZero
  else if a = 0x0001#16 then 0x0001#16
  else BitVec.ofNat 16 (euclidInverse a.toNat)

end Sys2Proof.Machine
end

