-- ==== Sys2Proof/Machine/Flags.lean ====
section
/-! DEFINITION. The fields of `STATUS` and the values it takes (10_state.md R29, 60_exceptions.md R200, R205).
These are the engine's only flags (10_state.md R34); they are written at acceptance, at completion and at reset. -/

namespace Sys2Proof.Machine

/-- `BUSY`, bit 0 (R29). -/
def statusBusy (w : Word) : Bool := w.getLsbD 0
/-- `DONE`, bit 1 (R29). -/
def statusDone (w : Word) : Bool := w.getLsbD 1
/-- `ERR`, bit 2 (R29). -/
def statusErr (w : Word) : Bool := w.getLsbD 2
/-- `ERRCODE`, bits 7:4 (R29). -/
def statusErrCode (w : Word) : BitVec 4 := w.extractLsb' 4 4

/-- A command is pending (R29, R32). -/
def State.busy (s : State) : Bool := statusBusy s.status

/-- The 4-bit code of an error kind (60_exceptions.md R200). -/
def ErrKind.code : ErrKind → Nat
  | .lengthMismatch => 1
  | .invalidBlockLength => 2
  | .invalidKeyLength => 3
  | .illegalCommand => 4

/-- `STATUS` while a command is pending: BUSY=1, DONE=0, ERR=0, ERRCODE=0 (20_memory.md R53). -/
def busyStatus : Word := 0x0001#16
/-- `STATUS` after success: BUSY=0, DONE=1, ERR=0, ERRCODE=0 (30_encoding.md R74). -/
def doneStatus : Word := 0x0002#16
/-- `STATUS` after an error: `0x0006 + 16 * code` (60_exceptions.md R205). -/
def errStatus (e : ErrKind) : Word := 0x0006#16 + 16#16 * BitVec.ofNat 16 e.code

end Sys2Proof.Machine
end

