-- ==== Sys2Proof/Machine/Operands.lean ====
section
/-! DEFINITION. Where a command's operands are (30_encoding.md R72: fixed registers) and how a register is named by
its index (10_state.md R20). -/

namespace Sys2Proof.Machine

/-- The register an index names, if any: the table of 10_state.md R20 (unmapped: 20_memory.md R57). -/
def regAt (a : Index) : Option Reg :=
  let n := a.toNat
  if n = 0x00 then some .cmd
  else if n = 0x01 then some .status
  else if n = 0x02 then some .blkLen
  else if n = 0x03 then some .keyLen
  else if h : 0x04 ≤ n ∧ n ≤ 0x07 then some (.x ⟨n - 0x04, by omega⟩)
  else if h : 0x08 ≤ n ∧ n ≤ 0x0F then some (.k ⟨n - 0x08, by omega⟩)
  else if h : 0x10 ≤ n ∧ n ≤ 0x13 then some (.y ⟨n - 0x10, by omega⟩)
  else if n = 0x14 then some .opa
  else if n = 0x15 then some .opb
  else if n = 0x16 then some .res
  else if h : 0x40 ≤ n ∧ n ≤ 0x73 then some (.ze ⟨n - 0x40, by omega⟩)
  else if h : 0x80 ≤ n ∧ n ≤ 0xB3 then some (.zd ⟨n - 0x80, by omega⟩)
  else none

/-- The index of a register (10_state.md R20), the other way round. -/
def Reg.index : Reg → Index
  | .cmd => 0x00#8
  | .status => 0x01#8
  | .blkLen => 0x02#8
  | .keyLen => 0x03#8
  | .x i => BitVec.ofNat 8 (0x04 + i.val)
  | .k i => BitVec.ofNat 8 (0x08 + i.val)
  | .y i => BitVec.ofNat 8 (0x10 + i.val)
  | .opa => 0x14#8
  | .opb => 0x15#8
  | .res => 0x16#8
  | .ze i => BitVec.ofNat 8 (0x40 + i.val)
  | .zd i => BitVec.ofNat 8 (0x80 + i.val)

/-- The column "host access" of 10_state.md R20. -/
def Reg.access : Reg → Access
  | .cmd | .blkLen | .keyLen | .x _ | .k _ | .opa | .opb => .rw
  | .status | .y _ | .res | .ze _ | .zd _ => .ro

/-- The current value of a register, `x[R]`. -/
def State.reg (s : State) : Reg → Word
  | .cmd => s.cmd
  | .status => s.status
  | .blkLen => s.blkLen
  | .keyLen => s.keyLen
  | .x i => s.x[i.val]
  | .k i => s.k[i.val]
  | .y i => s.y[i.val]
  | .opa => s.opa
  | .opb => s.opb
  | .res => s.res
  | .ze i => s.ze[i.val]
  | .zd i => s.zd[i.val]

/-- The four words of a block in order, word 0 leftmost: `B = X0 ‖ X1 ‖ X2 ‖ X3` (10_state.md R21). -/
def joinBlock (q : Quad) : Block := q[0] ++ (q[1] ++ (q[2] ++ q[3]))

/-- `KEY = K0 ‖ K1 ‖ ... ‖ K7` (10_state.md R22). -/
def joinKey (k : Vector Word 8) : Key :=
  k[0] ++ (k[1] ++ (k[2] ++ (k[3] ++ (k[4] ++ (k[5] ++ (k[6] ++ k[7]))))))

/-- The key operand of `KSE`, `ENCRYPT`, `DECRYPT`. -/
def State.key (s : State) : Key := joinKey s.k

/-- The block operand `X0 ‖ X1 ‖ X2 ‖ X3`. -/
def State.block (s : State) : Block := joinBlock s.x

/-- The output block `Y0 ‖ Y1 ‖ Y2 ‖ Y3` (10_state.md R23). -/
def State.output (s : State) : Block := joinBlock s.y

end Sys2Proof.Machine
end

