-- ==== Sys2Proof/Machine/Ops.lean ====
section
/-! DEFINITION. The shared operations: ending a command well or in error, the two host transactions, reset, and
whose turn it is. -/

namespace Sys2Proof.Machine

/-- The end of a command that succeeds: `STATUS <- 0x0002` (30_encoding.md R74). -/
def State.finish (s : State) : State := { s with status := doneStatus }

/-- TAKING AN EXCEPTION: `raise Err(code)` is exactly one register write (60_exceptions.md R205). No pc is saved, no
mode changes and no handler is entered: the engine has none of these. -/
def State.raise (s : State) (e : ErrKind) : State := { s with status := errStatus e }

/-- Going on after an error, and the start of any command: the accepted write of `CMD` stores the word, sets BUSY and
clears DONE, ERR and ERRCODE (30_encoding.md R73, 60_exceptions.md R208). There is no other return from an error. -/
def State.accept (s : State) (v : Word) : State := { s with cmd := v, status := busyStatus }

/-- `MemRead(a, 1)` (20_memory.md R52): the current value whatever BUSY is; an unmapped index reads 0x0000 (R57). -/
def memRead (s : State) (a : Index) : Word :=
  match regAt a with
  | some r => s.reg r
  | none => 0x0000#16

/-- Storing a word in a register: a host-writable data register takes all 16 bits, a write of `CMD` is accepted as a
command, a read-only register discards it (20_memory.md R53, R56). -/
def State.store (s : State) (r : Reg) (v : Word) : State :=
  match r with
  | .cmd => s.accept v
  | .blkLen => { s with blkLen := v }
  | .keyLen => { s with keyLen := v }
  | .x i => { s with x := s.x.set i.val v }
  | .k i => { s with k := s.k.set i.val v }
  | .opa => { s with opa := v }
  | .opb => { s with opb := v }
  | .status | .y _ | .res | .ze _ | .zd _ => s

/-- `MemWrite(a, 1, v)` (20_memory.md R53): discarded while BUSY (R62) and at an unmapped index (R57). -/
def memWrite (s : State) (a : Index) (v : Word) : State :=
  if s.busy then s
  else
    match regAt a with
    | some r => s.store r v
    | none => s

/-- The reset input (70_reset_and_hazards.md R230): every register becomes 0x0000. The parameters stay (R233), and the
host's own script, order and record are not the engine's to clear. -/
def State.applyReset (s : State) : State :=
  { State.reset with
    params := s.params, script := s.script, turns := s.turns, reads := s.reads, polled := s.polled, calls := s.calls }

/-- Who moves next. While nothing is pending only the host can (30_encoding.md R74: the engine's step is enabled exactly
when BUSY = 1). While a command is pending the spec gives no order (95_test_vectors.md PG5): `turns` says, and when it is
empty the engine completes, so that a pending step is eventually taken (70_reset_and_hazards.md R250). -/
def State.nextAgent (s : State) : Agent :=
  if s.busy then s.turns.headD .engine else .host

/-- A turn is used up only where there was a choice. -/
def State.takeTurn (s : State) : State :=
  if s.busy then { s with turns := s.turns.tail } else s

end Sys2Proof.Machine
end

