-- ==== Sys2Proof/Machine/Validate.lean ====
section
/-! DEFINITION. The length checks, made before anything is computed (44_block_codec.md R172, 60_exceptions.md R202, R203).
All 16 bits of a length register are compared (10_state.md R30, R31). -/

namespace Sys2Proof.Machine

/-- The block check: `InvalidBlockLength` unless the length is 64. -/
def checkBlock (n : Nat) : Except ErrKind Unit :=
  if n ≠ blockBits then .error .invalidBlockLength else .ok ()

/-- The key check: `InvalidKeyLength` unless the length is 128. -/
def checkKey (m : Nat) : Except ErrKind Unit :=
  if m ≠ keyBits then .error .invalidKeyLength else .ok ()

/-- `validate(n, m)`: the block first, then the key (R172, R203). -/
def validate (n m : Nat) : Except ErrKind Unit :=
  match checkBlock n with
  | .error e => .error e
  | .ok _ => checkKey m

/-- A command behind a check: if the check fails the command ends in that error and has written nothing else
(60_exceptions.md R205, R207); if it passes, `after` is the state with the command's results, and it finishes. -/
def State.guarded (s : State) (check : Except ErrKind Unit) (after : State) : Host.Outcome State Fault Refusal :=
  match check with
  | .error e => .next (s.raise e)
  | .ok _ => .next after.finish

end Sys2Proof.Machine
end

