-- ==== Sys2Proof/Machine/KeyScheduler.lean ====
section
/-! DEFINITION. The key scheduler (42_key_scheduler.md): `kse`, `ksd` and the commands `KSE`, `KSD`. -/

namespace Sys2Proof.Machine

/-- The passes of `kse` (R130): in each, append the eight words of the current 128-bit value, leftmost first, then
rotate it left by 25. The extraction comes before the rotation. -/
def extractions : Nat → Key → List Word
  | 0, _ => []
  | n + 1, w => chunks w 8 wordBits ++ extractions n (rotl w rot)

/-- Each pass appends eight words (R130). -/
theorem extractions_length (n : Nat) (w : Key) : (extractions n w).length = 8 * n := by
  induction n generalizing w with
  | zero => rfl
  | succ n ih => simp [extractions, chunks, ih]; omega

/-- `kse(KEY)`: seven extractions, of whose 56 words the first 52 are kept (R130). -/
def kse (key : Key) : Schedule :=
  Vector.mk ((extractions nExtract key).take nSub).toArray (by simp [extractions_length, nSub, nExtract])

/-- The six words of pass `i` of `ksd`, with `lower = 46 - 6*i` (R135): the two additive inverses trade places but
for `i = 0`. -/
def ksdRow (p : Params) (z : Schedule) (i : Fin 8) : List Word :=
  [mulinv p z[46 - 6 * i.val + 2]] ++
  (if i.val = 0 then [addinv z[46 - 6 * i.val + 3], addinv z[46 - 6 * i.val + 4]]
   else [addinv z[46 - 6 * i.val + 4], addinv z[46 - 6 * i.val + 3]]) ++
  [mulinv p z[46 - 6 * i.val + 5], z[46 - 6 * i.val], z[46 - 6 * i.val + 1]]

/-- The four words of the decryption half-round (R135). -/
def ksdHalf (p : Params) (z : Schedule) : List Word :=
  [mulinv p z[0], addinv z[1], addinv z[2], mulinv p z[3]]

/-- Each pass appends six words (R135). -/
theorem ksdRow_length (p : Params) (z : Schedule) (i : Fin 8) : (ksdRow p z i).length = 6 := by
  unfold ksdRow; split <;> rfl

/-- `ksd(Z)`: eight passes of six words and the half-round's four (R135). -/
def ksd (p : Params) (z : Schedule) : Schedule :=
  Vector.mk ((List.finRange nRounds).flatMap (ksdRow p z) ++ ksdHalf p z).toArray
    (by simp [List.length_flatMap, ksdRow_length, ksdHalf, nRounds] <;> decide)

/-- `KSE` (R132): the key length is checked, `BLK_LEN` is not; `ZE` is written whole. -/
def execKse (s : State) : Host.Outcome State Fault Refusal :=
  s.guarded (checkKey s.keyLen.toNat) { s with ze := kse s.key }

/-- `KSD` (R137): no check; `ZD` is written whole from whatever `ZE` holds. -/
def execKsd (s : State) : Host.Outcome State Fault Refusal :=
  .next (State.finish { s with zd := ksd s.params s.ze })

end Sys2Proof.Machine
end

