-- ==== Sys2Proof/Machine/RoundEngine.lean ====
section
/-! DEFINITION. The round engine (43_round_engine.md): `transform` and the commands `TFE`, `TFD`. -/

namespace Sys2Proof.Machine

/-- Full round `r` of `transform` on the words `q` (R150): all ten values come from the round's input, and the middle
words are exchanged but for round 7 (R151). -/
def fullRound (p : Params) (z : Schedule) (r : Nat) (h : r < 8) (q : Quad) : Quad :=
  let one := mul p q[0] z[6 * r]
  let two := add q[1] z[6 * r + 1]
  let three := add q[2] z[6 * r + 2]
  let four := mul p q[3] z[6 * r + 3]
  let five := xor16 one three
  let six := xor16 two four
  let seven := mul p five z[6 * r + 4]
  let eight := add six seven
  let nine := mul p eight z[6 * r + 5]
  let ten := add seven nine
  if r ≠ 7 then #v[xor16 one nine, xor16 three nine, xor16 two ten, xor16 four ten]
  else #v[xor16 one nine, xor16 two ten, xor16 three nine, xor16 four ten]

/-- The four words after the first `n` full rounds. -/
def afterRounds (p : Params) (z : Schedule) (q : Quad) : (n : Nat) → n ≤ 8 → Quad
  | 0, _ => q
  | n + 1, h => fullRound p z n (by omega) (afterRounds p z q n (by omega))

/-- The output transformation with `Z[48..51]` (R150). -/
def halfRound (p : Params) (z : Schedule) (q : Quad) : Quad :=
  #v[mul p q[0] z[48], add q[1] z[49], add q[2] z[50], mul p q[3] z[51]]

/-- `transform(X, Z)`: eight full rounds and the half-round, the same code for both directions (R150, R155). -/
def transform (p : Params) (q : Quad) (z : Schedule) : Quad :=
  halfRound p z (afterRounds p z q 8 (Nat.le_refl 8))

/-- `TFE` (R153): the block length is checked, `KEY_LEN` is not; `Y0..Y3` are written together. -/
def execTfe (s : State) : Host.Outcome State Fault Refusal :=
  s.guarded (checkBlock s.blkLen.toNat) { s with y := transform s.params s.x s.ze }

/-- `TFD` (R154): as `TFE` with the other store. -/
def execTfd (s : State) : Host.Outcome State Fault Refusal :=
  s.guarded (checkBlock s.blkLen.toNat) { s with y := transform s.params s.x s.zd }

end Sys2Proof.Machine
end

