-- ==== Sys2Proof/Machine/BlockCodec.lean ====
section
/-! DEFINITION. The block codec facade (44_block_codec.md): the functions `encrypt` and `decrypt` on bit vectors of any
length, and the commands `ENCRYPT`, `DECRYPT` that run them on the registers. -/

namespace Sys2Proof.Machine

/-- The four words of a block, `split(B, 4, 16)` (10_state.md R21, 41_primitives.md R111). -/
def blockWords (b : Block) : Quad := Vector.mk (chunks b 4 wordBits).toArray (by simp [chunks])

/-- `encrypt(block, key)` (R170): validation comes before any arithmetic. -/
def encrypt {n m : Nat} (p : Params) (block : BitVec n) (key : BitVec m) : Except ErrKind Block :=
  match validate n m with
  | .error e => .error e
  | .ok _ => .ok (joinBlock (transform p (blockWords (block.setWidth blockBits)) (kse (key.setWidth keyBits))))

/-- `decrypt(block, key)` (R171): it differs from `encrypt` only in the schedule handed to `transform`. -/
def decrypt {n m : Nat} (p : Params) (block : BitVec n) (key : BitVec m) : Except ErrKind Block :=
  match validate n m with
  | .error e => .error e
  | .ok _ => .ok (joinBlock (transform p (blockWords (block.setWidth blockBits)) (ksd p (kse (key.setWidth keyBits)))))

/-- `ENCRYPT` (R173): both lengths are checked, block first; `ZE` and `Y0..Y3` are written, `ZD` is not touched. -/
def execEncrypt (s : State) : Host.Outcome State Fault Refusal :=
  let ze := kse s.key
  s.guarded (validate s.blkLen.toNat s.keyLen.toNat) { s with ze := ze, y := transform s.params s.x ze }

/-- `DECRYPT` (R174): as `ENCRYPT`, through the decryption schedule; `ZE`, `ZD` and `Y0..Y3` are written. -/
def execDecrypt (s : State) : Host.Outcome State Fault Refusal :=
  let ze := kse s.key
  let zd := ksd s.params ze
  s.guarded (validate s.blkLen.toNat s.keyLen.toNat) { s with ze := ze, zd := zd, y := transform s.params s.x zd }

end Sys2Proof.Machine
end

