-- ==== Sys2Proof/Machine/Primitives.lean ====
section
/-! DEFINITION. The five primitive commands (41_primitives.md R101 to R105): they read `OPA` (and `OPB`), write `RES`,
raise no error and look at no length register (R100). -/

namespace Sys2Proof.Machine

/-- The completion of a primitive command with result `v`: `RES` and `STATUS`, nothing else (10_state.md R25). -/
def State.primitive (s : State) (v : Word) : Host.Outcome State Fault Refusal :=
  .next (State.finish { s with res := v })

/-- `XOR` (R101): `x[RES] <- x[OPA] ^ x[OPB]`. -/
def execXor (s : State) : Host.Outcome State Fault Refusal := s.primitive (xor16 s.opa s.opb)

/-- `ADD` (R102): `x[RES] <- add(x[OPA], x[OPB])`. -/
def execAdd (s : State) : Host.Outcome State Fault Refusal := s.primitive (add s.opa s.opb)

/-- `MUL` (R103): `x[RES] <- mul(x[OPA], x[OPB])`. -/
def execMul (s : State) : Host.Outcome State Fault Refusal := s.primitive (mul s.params s.opa s.opb)

/-- `ADDINV` (R104): `x[RES] <- addinv(x[OPA])`, `OPB` ignored. -/
def execAddinv (s : State) : Host.Outcome State Fault Refusal := s.primitive (addinv s.opa)

/-- `MULINV` (R105): `x[RES] <- mulinv(x[OPA])`, `OPB` ignored. -/
def execMulinv (s : State) : Host.Outcome State Fault Refusal := s.primitive (mulinv s.params s.opa)

end Sys2Proof.Machine
end

