-- ==== Sys2Proof/Machine/Dispatch.lean ====
section
/-! DEFINITION. One arm per command (30_encoding.md R71). -/

namespace Sys2Proof.Machine

def exec (i : Instr) (s : State) : Host.Outcome State Fault Refusal :=
  match i with
  -- 41_primitives.md
  | .xor => Sys2Proof.Machine.execXor s
  | .add => Sys2Proof.Machine.execAdd s
  | .mul => Sys2Proof.Machine.execMul s
  | .addinv => Sys2Proof.Machine.execAddinv s
  | .mulinv => Sys2Proof.Machine.execMulinv s
  -- 42_key_scheduler.md
  | .kse => Sys2Proof.Machine.execKse s
  | .ksd => Sys2Proof.Machine.execKsd s
  -- 43_round_engine.md
  | .tfe => Sys2Proof.Machine.execTfe s
  | .tfd => Sys2Proof.Machine.execTfd s
  -- 44_block_codec.md
  | .encrypt => Sys2Proof.Machine.execEncrypt s
  | .decrypt => Sys2Proof.Machine.execDecrypt s

end Sys2Proof.Machine
end

