-- ==== Sys2Proof/Machine/Engine.lean ====
section
/-! DEFINITION. The engine's one kind of step (30_encoding.md R74). -/

namespace Sys2Proof.Machine

/-- The word the engine decodes is the one in `CMD`; there is no fetch (10_state.md R33). -/
def State.commandWord (s : State) : Word := s.cmd

/-- `IllegalCommand`, the check that comes before every other (60_exceptions.md R203, R204). -/
def execIllegal (s : State) : Host.Outcome State Fault Refusal := .next (s.raise .illegalCommand)

/-- `EngineStep` (30_encoding.md R74): decode `CMD` and run the command, or raise `IllegalCommand`. -/
def engineStep (s : State) : Host.Outcome State Fault Refusal :=
  match decode s.commandWord with
  | .ok i => exec i s
  | .error _ => execIllegal s

/-- A pending command: the state in which the host's write of `CMD` with word `w` has just been accepted and the
engine moves next (30_encoding.md R73; notes/assumptions/5). -/
def State.pending (s : State) (w : Word) : State :=
  { s.accept w with turns := .engine :: s.turns }

end Sys2Proof.Machine
end

