-- ==== Sys2Proof/Machine/HostPort.lean ====
section
/-! DEFINITION. The host's side: one line of its script at a time (30_encoding.md R79), and the macros and the call
sequence that expand to lines (R80, 70_reset_and_hazards.md R236). -/

namespace Sys2Proof.Machine

/-- `WR reg, val` (R79). -/
def lineWr (r : Reg) (v : Word) : HostLine := .wr r.index v
/-- `RD reg` (R79). -/
def lineRd (r : Reg) : HostLine := .rd r.index
/-- A command's line: `MemWrite(0x00, 1, opcode)` (R79). -/
def lineCommand (i : Instr) : HostLine := .wr 0x00#8 (encode i)
/-- `CMD val`: an arbitrary command word (R79). -/
def lineCmd (v : Word) : HostLine := .wr 0x00#8 v
/-- `EXPECT reg, val`: the same transaction as `RD`; that the value read is `val` is the script's claim (R80). -/
def lineExpect (r : Reg) (_val : Word) : HostLine := lineRd r

/-- `LDBLK w0 w1 w2 w3` (R80). -/
def macroLdblk (w : Quad) : List HostLine :=
  [lineWr (.x 0) w[0], lineWr (.x 1) w[1], lineWr (.x 2) w[2], lineWr (.x 3) w[3], lineWr .blkLen 0x0040#16]

/-- `LDKEY w0 ... w7` (R80). -/
def macroLdkey (w : Vector Word 8) : List HostLine :=
  [lineWr (.k 0) w[0], lineWr (.k 1) w[1], lineWr (.k 2) w[2], lineWr (.k 3) w[3],
   lineWr (.k 4) w[4], lineWr (.k 5) w[5], lineWr (.k 6) w[6], lineWr (.k 7) w[7], lineWr .keyLen 0x0080#16]

/-- `RDOUT` (R80). -/
def macroRdout : List HostLine := [lineRd (.y 0), lineRd (.y 1), lineRd (.y 2), lineRd (.y 3)]

/-- A facade command and what the caller makes of it: the last four lines of the call (R236). On registers and lengths
that are already loaded it is a call of its own: a second block under the same key needs only new `X0..X3` before it. -/
def macroIssue (i : Instr) : List HostLine := [lineCommand i, .wait, .check]

/-- The call of the boundary as a host sequence, `encrypt(plaintext_block, key)` for `ENCRYPT` and the same for `DECRYPT`
(70_reset_and_hazards.md R236). -/
def macroCall (i : Instr) (key : Vector Word 8) (block : Quad) : List HostLine :=
  macroLdkey key ++ macroLdblk block ++ macroIssue i

/-- The result a call's four reads give: the last four words read, joined, the first read leftmost (R236). -/
def lastBlock (reads : List Word) : List CallAnswer :=
  match reads.reverse with
  | y3 :: y2 :: y1 :: y0 :: _ => [.result (joinBlock #v[y0, y1, y2, y3])]
  | _ => []

/-- The host performs the first line of its script; with no line left it does nothing (60_exceptions.md R225: all state
survives idleness). `WAIT` reads STATUS and stays until it finds BUSY clear; it keeps the word it read last and does not
record the others, for their number means nothing (30_encoding.md R80, 70_reset_and_hazards.md R251). The last two lines
are the host's own work in a call (R236; notes/assumptions/10): the branch on that word, and the joining of the four words
read. `result` stands only where `check` put it, after four reads; elsewhere, with fewer, nothing is recorded. -/
def hostStep (s : State) : State :=
  match s.script with
  | [] => s
  | .wr a v :: rest => memWrite { s with script := rest } a v
  | .rd a :: rest => { s with script := rest, reads := s.reads ++ [memRead s a] }
  | .wait :: rest =>
    let w := memRead s 0x01#8
    { s with polled := w, script := if statusBusy w then s.script else rest }
  | .reset :: rest => State.applyReset { s with script := rest }
  | .check :: rest =>
    if statusErr s.polled then { s with script := rest, calls := s.calls ++ [.failed (statusErrCode s.polled)] }
    else { s with script := macroRdout ++ .result :: rest }
  | .result :: rest => { s with script := rest, calls := s.calls ++ lastBlock s.reads }

end Sys2Proof.Machine
end

