-- ==== Sys2Proof/Machine/Step.lean ====
section
/-! DEFINITION. One step of the whole machine: one host transaction or the engine's completion step
(00_scope.md section 6; 20_memory.md R51, R61). -/

namespace Sys2Proof.Machine

def step (s : State) : Host.Outcome State Fault Refusal :=
  match s.nextAgent with
  | .engine => engineStep s.takeTurn
  | .host => .next (hostStep s.takeTurn)

/-- A command is not fetched but written by the host into `CMD`; this is the state right after that write was accepted,
with the engine to move (notes/assumptions/5). A command is one 16-bit word; the bits at and above `nbits` are 0. -/
def State.withFetchWord (s : State) (nbits w : Nat) : State :=
  s.pending (BitVec.ofNat 16 (w % 2 ^ nbits))

end Sys2Proof.Machine
end

