-- ==== Sys2Proof/Safety.lean ====
section
/-! DEFINITION. What a legal state is, and the words the claims use about commands and runs. -/

namespace Sys2Proof.Machine

/-- The six values of `STATUS` that occur (10_state.md R29); 0x0016 is not among them (60_exceptions.md R201). -/
abbrev LegalStatus (w : Word) : Prop :=
  w = 0x0000#16 ∨ w = 0x0001#16 ∨ w = 0x0002#16 ∨ w = 0x0026#16 ∨ w = 0x0036#16 ∨ w = 0x0046#16

/-- The commands that take a block and so check `BLK_LEN` (60_exceptions.md R203, check 2). -/
def takesBlock : Instr → Bool
  | .tfe | .tfd | .encrypt | .decrypt => true
  | .xor | .add | .mul | .addinv | .mulinv | .kse | .ksd => false

/-- The commands that take a key and so check `KEY_LEN` (60_exceptions.md R203, check 3). -/
def takesKey : Instr → Bool
  | .kse | .encrypt | .decrypt => true
  | .xor | .add | .mul | .addinv | .mulinv | .ksd | .tfe | .tfd => false

/-- The registers a command writes beside `STATUS` (30_encoding.md R71, the column "writes"). -/
def writes : Instr → Reg → Bool
  | .xor, .res | .add, .res | .mul, .res | .addinv, .res | .mulinv, .res => true
  | .kse, .ze _ | .encrypt, .ze _ | .decrypt, .ze _ => true
  | .ksd, .zd _ | .decrypt, .zd _ => true
  | .tfe, .y _ | .tfd, .y _ | .encrypt, .y _ | .decrypt, .y _ => true
  | _, _ => false

/-- The lengths a command needs are declared right, so none of its checks fails (60_exceptions.md R203). -/
abbrev LengthsOk (i : Instr) (s : State) : Prop :=
  (takesBlock i = true → s.blkLen = 64#16) ∧ (takesKey i = true → s.keyLen = 128#16)

/-- No register differs. -/
abbrev SameRegisters (s t : State) : Prop := ∀ r : Reg, t.reg r = s.reg r

/-- Nothing of the model's own, and not the configuration, differs. -/
abbrev SameRest (s t : State) : Prop :=
  t.params = s.params ∧ t.script = s.script ∧ t.turns = s.turns ∧ t.reads = s.reads ∧ t.polled = s.polled ∧
    t.calls = s.calls

/-- A run is over: its last line has been performed and nothing is pending (70_reset_and_hazards.md R251). -/
abbrev RunOver (s : State) : Prop := s.script = [] ∧ s.busy = false

/-- What `STATUS` says of the command word: idle since reset, ended well, or ended in an error the word's command can
raise (10_state.md R29, 60_exceptions.md R203). -/
structure StatusFitsCommand (s : State) : Prop where
  idle : s.status = 0x0000#16 → s.cmd = 0x0000#16
  ended : s.status = 0x0002#16 → ∃ i, decode s.cmd = .ok i
  block : s.status = 0x0026#16 → ∃ i, decode s.cmd = .ok i ∧ takesBlock i = true
  key : s.status = 0x0036#16 → ∃ i, decode s.cmd = .ok i ∧ takesKey i = true
  illegal : s.status = 0x0046#16 → ∀ i, decode s.cmd ≠ .ok i

/-- The schedule stores hold only whole derivations: `ZE` some key's encryption schedule, `ZD` the decryption schedule of
some key's, or the zeros of reset (42_key_scheduler.md R138; 10_state.md R26, R27, R40). -/
structure SchedulesDerived (s : State) : Prop where
  ze : ∃ key : Key, s.ze = kse key
  zd : s.zd = Vector.replicate 52 0x0000#16 ∨ ∃ key : Key, s.zd = ksd s.params (kse key)

/-- While `STATUS` is 0x0000 nothing has been issued since reset, so no result exists (10_state.md R29, R40). -/
abbrev NothingComputed (s : State) : Prop :=
  s.status = 0x0000#16 →
    s.y = Vector.replicate 4 0x0000#16 ∧ s.res = 0x0000#16 ∧ s.ze = Vector.replicate 52 0x0000#16 ∧
      s.zd = Vector.replicate 52 0x0000#16

/-- The invariant of the machine: it holds at reset and every step keeps it. -/
structure Inv (s : State) : Prop where
  status : LegalStatus s.status
  fits : StatusFitsCommand s
  schedules : SchedulesDerived s
  fresh : NothingComputed s

/-- A multiplication that the multiplication by the inverse subkey undoes in `LITERAL` mode: no zero subkey meets a
non-zero word, and no two non-zero operands have the product residue 65536 (44_block_codec.md R175). -/
abbrev MulUndone (a z : Word) : Prop :=
  ¬ (z = 0#16 ∧ a ≠ 0#16) ∧ ¬ (a ≠ 0#16 ∧ z ≠ 0#16 ∧ a.toNat * z.toNat % 65537 = 65536)

/-- The eighteen multiplications of a `transform` that its inverse has to undo are all undone: slots 0 and 3 of each
round and of the half-round (44_block_codec.md R175). -/
abbrev TransformUndone (p : Params) (q : Quad) (z : Schedule) : Prop :=
  (∀ (r : Nat) (h : r < 8),
    MulUndone (afterRounds p z q r (by omega))[0] z[6 * r] ∧ MulUndone (afterRounds p z q r (by omega))[3] z[6 * r + 3]) ∧
  MulUndone (afterRounds p z q 8 (Nat.le_refl 8))[0] z[48] ∧ MulUndone (afterRounds p z q 8 (Nat.le_refl 8))[3] z[51]

end Sys2Proof.Machine
end

