-- ==== Sys2Proof/Certificates/Slice0/Obligations.lean ====
section
/-! DEFINITION. The statements for the provers. Each docstring names the rules of spec/ it formalises. A result written as
an equation `exec i s = .next { s with … }` says the whole frame: every field not named is unchanged. -/

open Sys2Proof Sys2Proof.Machine

/-! ### Encoding -/

/-- The eleven words of 30_encoding.md R71, written out bit by bit, decode to their commands. -/
def Obligations.TableWordsDecode : Prop :=
  decode 0b0000000000010000#16 = .ok .xor ∧ decode 0b0000000000010001#16 = .ok .add ∧
  decode 0b0000000000010010#16 = .ok .mul ∧ decode 0b0000000000010011#16 = .ok .addinv ∧
  decode 0b0000000000010100#16 = .ok .mulinv ∧ decode 0b0000000000100000#16 = .ok .kse ∧
  decode 0b0000000000100001#16 = .ok .ksd ∧ decode 0b0000000000110000#16 = .ok .tfe ∧
  decode 0b0000000000110001#16 = .ok .tfd ∧ decode 0b0000000001000000#16 = .ok .encrypt ∧
  decode 0b0000000001000001#16 = .ok .decrypt

/-- Decoder and encoder agree in both directions: a word decodes to a command exactly when it is that command's word, and
the table's numbering of a row's bits finds the same command (30_encoding.md R70, R71, R81). -/
def Obligations.DecodeEncodeAgree : Prop :=
  (∀ (w : Word) (i : Instr), decode w = .ok i ↔ w = encode i) ∧
  (∀ (w : Nat) (i : Instr), w < 2 ^ 16 → (decodeTableWord 16 w = some i ↔ w = (encode i).toNat))

/-- The field rules and the opcode map describe the same set of words: a word is a command's exactly when RSV is 0, UNIT is
1 to 4 and FUNC is used in that unit (30_encoding.md R70, R75). -/
def Obligations.WellFormedWordsAreCommands : Prop :=
  ∀ w : Word, (∃ i : Instr, decode w = .ok i) ↔ wordWellFormed w = true

/-- 30_encoding.md R75: 65 525 words are illegal, 0x0000 among them; an illegal word written to CMD while idle is accepted,
and the completion step then rejects it with IllegalCommand, having changed no register but CMD and STATUS. -/
def Obligations.IllegalWordsRejected : Prop :=
  (Finset.univ.filter fun n : Fin 65536 => decodeTableWord 16 n.val = none).card = 65525 ∧
  (∀ i : Instr, decode 0x0000#16 ≠ .ok i) ∧
  (∀ w : Word, (0x0015#16 ≤ w ∧ w ≤ 0x001F#16) ∨ (0x0022#16 ≤ w ∧ w ≤ 0x002F#16) ∨ (0x0032#16 ≤ w ∧ w ≤ 0x003F#16) ∨
      (0x0042#16 ≤ w ∧ w ≤ 0x004F#16) ∨ w < 0x0010#16 ∨ 0x0050#16 ≤ w → ∀ i : Instr, decode w ≠ .ok i) ∧
  (∀ (s : State) (w : Word), s.busy = false → (∀ i : Instr, decode w ≠ .ok i) →
    memWrite s 0x00#8 w = { s with cmd := w, status := 0x0001#16 } ∧
    engineStep (memWrite s 0x00#8 w) = .next { s with cmd := w, status := 0x0046#16 })

/-! ### Primitives -/

/-- 41_primitives.md R101: `xor` on any widths, LengthMismatch when they differ; the command, encoded 0x0010, writes the
bitwise xor of OPA and OPB to RES. -/
def Obligations.XorResult : Prop :=
  encode .xor = 0x0010#16 ∧
  (∀ (n : Nat) (a b : BitVec n), ∃ r, xorBits a b = .ok r ∧ ∀ i, r.getLsbD i = (a.getLsbD i ^^ b.getLsbD i)) ∧
  (∀ (wa wb : Nat) (a : BitVec wa) (b : BitVec wb), wa ≠ wb → xorBits a b = .error .lengthMismatch) ∧
  (∀ s : State, ∃ v : Word, exec .xor s = .next { s with res := v, status := 0x0002#16 } ∧
    ∀ i, v.getLsbD i = (s.opa.getLsbD i ^^ s.opb.getLsbD i))

/-- 41_primitives.md R102: RES becomes (OPA + OPB) mod 65536; nothing but RES and STATUS changes. -/
def Obligations.AddResult : Prop :=
  encode .add = 0x0011#16 ∧ ∀ s : State, ∃ v : Word, exec .add s = .next { s with res := v, status := 0x0002#16 } ∧
    v.toNat = (s.opa.toNat + s.opb.toNat) % 65536

/-- 41_primitives.md R103, both settings of MUL_ZERO_MODE: the product modulo 65537, with 0 standing for 0 or for 65536,
delivered modulo 65536. -/
def Obligations.MulResult : Prop :=
  encode .mul = 0x0012#16 ∧ ∀ s : State, ∃ v : Word, exec .mul s = .next { s with res := v, status := 0x0002#16 } ∧
    (s.params.mulZeroMode = .literal → v.toNat = s.opa.toNat * s.opb.toNat % 65537 % 65536) ∧
    (s.params.mulZeroMode = .textbook →
      v.toNat = (if s.opa = 0#16 then 65536 else s.opa.toNat) * (if s.opb = 0#16 then 65536 else s.opb.toNat)
        % 65537 % 65536)

/-- 41_primitives.md R104: RES becomes (65536 - OPA) mod 65536, OPB ignored. -/
def Obligations.AddinvResult : Prop :=
  encode .addinv = 0x0013#16 ∧ ∀ s : State, ∃ v : Word, exec .addinv s = .next { s with res := v, status := 0x0002#16 } ∧
    v.toNat = (65536 - s.opa.toNat) % 65536

/-- 41_primitives.md R105: MULINV_ZERO for 0, 1 for 1, and for every other word the unique inverse in 2 to 65535; the loop
that computes it appears nowhere in the statement. -/
def Obligations.MulinvResult : Prop :=
  encode .mulinv = 0x0014#16 ∧ ∀ s : State, ∃ v : Word, exec .mulinv s = .next { s with res := v, status := 0x0002#16 } ∧
    (s.opa = 0#16 → v = s.params.mulinvZero) ∧ (s.opa = 1#16 → v = 1#16) ∧
    (2 ≤ s.opa.toNat → 2 ≤ v.toNat ∧ s.opa.toNat * v.toNat % 65537 = 1 ∧
      ∀ x : Nat, 2 ≤ x → x ≤ 65535 → s.opa.toNat * x % 65537 = 1 → x = v.toNat)

/-- 41_primitives.md R108, 70_reset_and_hazards.md R238: for words 2 to 65535 the Euclid loop makes at most 19 passes (more
fuel than 19 changes nothing), and 40236 needs all 19. -/
def Obligations.EuclidLoopBounded : Prop :=
  (∀ a fuel : Nat, 2 ≤ a → a ≤ 65535 → 19 ≤ fuel → euclidLoop fuel 65537 a 0 1 = euclidLoop 19 65537 a 0 1) ∧
  euclidLoop 18 65537 40236 0 1 ≠ euclidLoop 19 65537 40236 0 1

/-- 41_primitives.md R113 (a), (b), (c), (d), (g), facts the spec derives. -/
def Obligations.InverseLaws : Prop :=
  (∀ a : Word, addinv (addinv a) = a ∧ add a (addinv a) = 0#16) ∧
  (∀ x z : Word, add (add x z) (addinv z) = x) ∧
  (∀ (p : Params) (a : Word), p.mulinvZero = 0#16 → mulinv p (mulinv p a) = a) ∧
  (∀ (p : Params) (a : Word), a ≠ 0#16 → mul p a (mulinv p a) = 1#16) ∧
  (∀ a b : Word, xor16 (xor16 a b) b = a)

/-- 41_primitives.md R113 (e): in TEXTBOOK mode with MULINV_ZERO = 0 multiplication by the inverse undoes multiplication,
for every word and every subkey, 0 included. -/
def Obligations.TextbookMulUndone : Prop :=
  ∀ (p : Params) (x z : Word), p.mulZeroMode = .textbook → p.mulinvZero = 0#16 → mul p (mul p x z) (mulinv p z) = x

/-- 41_primitives.md R113 (f): in LITERAL mode it fails exactly on the two exceptions. -/
def Obligations.LiteralMulUndoneExactly : Prop :=
  ∀ (p : Params) (x z : Word), p.mulZeroMode = .literal →
    (mul p (mul p x z) (mulinv p z) ≠ x ↔
      (z = 0#16 ∧ x ≠ 0#16) ∨ (z ≠ 0#16 ∧ x ≠ 0#16 ∧ x.toNat * z.toNat % 65537 = 65536))

/-- 41_primitives.md R109: one place of rotation moves every bit left and brings the leftmost back on the right; `k` single
places are the rotation by `k` mod the width. -/
def Obligations.RotationByRepetition : Prop :=
  (∀ (n : Nat) (v : BitVec n) (i : Nat), i < n →
    (rotl1 v).getLsbD i = if i = 0 then v.getLsbD (n - 1) else v.getLsbD (i - 1)) ∧
  (∀ (n : Nat) (v : BitVec n) (k : Nat), 0 < n → rotl v k = v.rotateLeft (k % n) ∧ rotl v k = rotl v (k % n))

/-- 41_primitives.md R110: the two conversions, and that they are inverse on the range. -/
def Obligations.ConversionsInverse : Prop :=
  (∀ (n : Nat) (v : BitVec n), toInt v = ∑ i ∈ Finset.range n, (v.getLsbD i).toNat * 2 ^ i) ∧
  (∀ (n N : Nat) (h : n < 2 ^ N), toInt (toBits n N h) = n) ∧
  (∀ (N : Nat) (v : BitVec N), toBits (toInt v) N v.isLt = v)

/-- 41_primitives.md R111: `split` fails on a wrong length and else gives the chunks, leftmost first; at the engine's own
widths joining the words in the same order undoes it (10_state.md R21, R22). -/
def Obligations.SplitChunks : Prop :=
  (∀ (n parts width : Nat) (v : BitVec n), n ≠ parts * width → split v parts width = .error .lengthMismatch) ∧
  (∀ (n parts width : Nat) (v : BitVec n), n = parts * width →
    ∃ l : List (BitVec width), split v parts width = .ok l ∧ l.length = parts ∧
      ∀ (j : Nat) (h : j < l.length) (i : Nat), i < width → l[j].getLsbD i = v.getLsbD (n - (j + 1) * width + i)) ∧
  (∀ b : Block, joinBlock (blockWords b) = b) ∧ (∀ q : Quad, blockWords (joinBlock q) = q) ∧
  (∀ k : Vector Word 8, split (joinKey k) 8 16 = .ok k.toList)

/-! ### Key scheduler -/

/-- 42_key_scheduler.md R130, R132: with KEY_LEN = 128, KSE writes ZE whole with `Z[8j+m]` = the 16 bits from position
`127-16m` down of the key rotated left by `25*j`, whatever BLK_LEN holds; with another KEY_LEN it writes only STATUS. -/
def Obligations.KseResult : Prop :=
  encode .kse = 0x0020#16 ∧ ∀ s : State,
    (s.keyLen = 128#16 →
      ∃ z : Schedule, exec .kse s = .next { s with ze := z, status := 0x0002#16 } ∧
        ∀ (j m : Nat) (h : 8 * j + m < 52), m < 8 →
          z[8 * j + m] = (s.key.rotateLeft (25 * j)).extractLsb' (112 - 16 * m) 16) ∧
    (s.keyLen ≠ 128#16 → exec .kse s = .next { s with status := 0x0036#16 })

/-- 42_key_scheduler.md R131, the closed form the spec derives: bit `p` from the left of `Z[i]` is the key bit at position
`off(i) + p` from the left, modulo 128. -/
def Obligations.KseClosedForm : Prop :=
  ∀ (key : Key) (i p : Nat) (h : i < 52), p < 16 →
    (kse key)[i].getLsbD (15 - p) = key.getLsbD (127 - ((25 * (i / 8) + 16 * (i % 8)) % 128 + p) % 128)

/-- 42_key_scheduler.md R135, R137: KSD writes ZD whole from ZE, word by word as the eight passes and the half-round emit
them, and checks no length. -/
def Obligations.KsdResult : Prop :=
  encode .ksd = 0x0021#16 ∧ ∀ s : State, ∃ d : Schedule, exec .ksd s = .next { s with zd := d, status := 0x0002#16 } ∧
    (∀ (i : Nat) (h : i < 8),
      d[6 * i] = mulinv s.params s.ze[46 - 6 * i + 2] ∧
      d[6 * i + 1] = addinv (if i = 0 then s.ze[46 - 6 * i + 3] else s.ze[46 - 6 * i + 4]) ∧
      d[6 * i + 2] = addinv (if i = 0 then s.ze[46 - 6 * i + 4] else s.ze[46 - 6 * i + 3]) ∧
      d[6 * i + 3] = mulinv s.params s.ze[46 - 6 * i + 5] ∧
      d[6 * i + 4] = s.ze[46 - 6 * i] ∧ d[6 * i + 5] = s.ze[46 - 6 * i + 1]) ∧
    d[48] = mulinv s.params s.ze[0] ∧ d[49] = addinv s.ze[1] ∧ d[50] = addinv s.ze[2] ∧
    d[51] = mulinv s.params s.ze[3]

/-- 42_key_scheduler.md R136: with MULINV_ZERO = 0 the decryption schedule of the decryption schedule is the schedule. -/
def Obligations.KsdInvolution : Prop :=
  ∀ (p : Params) (z : Schedule), p.mulinvZero = 0#16 → ksd p (ksd p z) = z

/-! ### Round engine -/

/-- 43_round_engine.md R150: the words before each round and after the last are related as the pseudocode says, round 7
without the exchange, and the half-round ends it. -/
def Obligations.TransformRounds : Prop :=
  ∀ (p : Params) (q : Quad) (z : Schedule), ∃ w : Nat → Quad, w 0 = q ∧
    (∀ (r : Nat) (h : r < 8) (one two three four five six seven eight nine ten : Word),
      one = mul p (w r)[0] z[6 * r] → two = add (w r)[1] z[6 * r + 1] → three = add (w r)[2] z[6 * r + 2] →
      four = mul p (w r)[3] z[6 * r + 3] → five = one ^^^ three → six = two ^^^ four →
      seven = mul p five z[6 * r + 4] → eight = add six seven → nine = mul p eight z[6 * r + 5] →
      ten = add seven nine →
      (r ≠ 7 → w (r + 1) = #v[one ^^^ nine, three ^^^ nine, two ^^^ ten, four ^^^ ten]) ∧
      (r = 7 → w (r + 1) = #v[one ^^^ nine, two ^^^ ten, three ^^^ nine, four ^^^ ten])) ∧
    transform p q z = #v[mul p (w 8)[0] z[48], add (w 8)[1] z[49], add (w 8)[2] z[50], mul p (w 8)[3] z[51]]

/-- 43_round_engine.md R153: TFE with BLK_LEN = 64 writes Y with the transform of X under ZE, whatever KEY_LEN holds, and
with another BLK_LEN writes only STATUS; its corner case, an all-zero ZE in LITERAL mode. -/
def Obligations.TfeResult : Prop :=
  encode .tfe = 0x0030#16 ∧ ∀ s : State,
    (s.blkLen = 64#16 → exec .tfe s = .next { s with y := transform s.params s.x s.ze, status := 0x0002#16 }) ∧
    (s.blkLen ≠ 64#16 → exec .tfe s = .next { s with status := 0x0026#16 }) ∧
    (s.blkLen = 64#16 → s.params.mulZeroMode = .literal → s.ze = Vector.replicate 52 0#16 →
      exec .tfe s = .next { s with y := #v[0#16, s.x[2], s.x[1], 0#16], status := 0x0002#16 })

/-- 43_round_engine.md R154: TFD is TFE but for the store read, which is ZD. -/
def Obligations.TfdResult : Prop :=
  encode .tfd = 0x0031#16 ∧ ∀ s : State,
    (s.blkLen = 64#16 → exec .tfd s = .next { s with y := transform s.params s.x s.zd, status := 0x0002#16 }) ∧
    (s.blkLen ≠ 64#16 → exec .tfd s = .next { s with status := 0x0026#16 }) ∧
    (s.blkLen = 64#16 → s.params.mulZeroMode = .literal → s.zd = Vector.replicate 52 0#16 →
      exec .tfd s = .next { s with y := #v[0#16, s.x[2], s.x[1], 0#16], status := 0x0002#16 })

/-- 43_round_engine.md R155: in TEXTBOOK mode with MULINV_ZERO = 0 the transform with the decryption schedule undoes the
transform, for every schedule and every block. -/
def Obligations.TransformUndoneTextbook : Prop :=
  ∀ (p : Params) (q : Quad) (z : Schedule), p.mulZeroMode = .textbook → p.mulinvZero = 0#16 →
    transform p (transform p q z) (ksd p z) = q

/-- 43_round_engine.md R155, 44_block_codec.md R175: in LITERAL mode the transform with the decryption schedule undoes
the transform whenever the eighteen multiplications to be undone meet none of the exceptions, whatever MULINV_ZERO is. -/
def Obligations.TransformUndoneLiteral : Prop :=
  ∀ (p : Params) (q : Quad) (z : Schedule), p.mulZeroMode = .literal → TransformUndone p q z →
    transform p (transform p q z) (ksd p z) = q

/-! ### Block codec facade -/

/-- 44_block_codec.md R170, R171, R172: the two functions fail on a wrong length, the block being checked first, and on a
64-bit block and a 128-bit key are the joined words of `transform` with the encryption or the decryption schedule. -/
def Obligations.FacadeFunctions : Prop :=
  (∀ (p : Params) (n m : Nat) (b : BitVec n) (key : BitVec m),
    (n ≠ 64 → encrypt p b key = .error .invalidBlockLength ∧ decrypt p b key = .error .invalidBlockLength) ∧
    (n = 64 → m ≠ 128 → encrypt p b key = .error .invalidKeyLength ∧ decrypt p b key = .error .invalidKeyLength)) ∧
  (∀ (p : Params) (b : Block) (key : Key) (q : Quad), split b 4 16 = .ok q.toList →
    encrypt p b key = .ok (joinBlock (transform p q (kse key))) ∧
    decrypt p b key = .ok (joinBlock (transform p q (ksd p (kse key)))))

/-- 44_block_codec.md R173: ENCRYPT's cases of the lengths, its registers on success, and that its output is the
function `encrypt` of the block and the key. -/
def Obligations.EncryptResult : Prop :=
  encode .encrypt = 0x0040#16 ∧ ∀ s : State,
    (s.blkLen ≠ 64#16 → exec .encrypt s = .next { s with status := 0x0026#16 }) ∧
    (s.blkLen = 64#16 → s.keyLen ≠ 128#16 → exec .encrypt s = .next { s with status := 0x0036#16 }) ∧
    (s.blkLen = 64#16 → s.keyLen = 128#16 → ∃ t : State, exec .encrypt s = .next t ∧
      t = { s with ze := kse s.key, y := transform s.params s.x (kse s.key), status := 0x0002#16 } ∧
      encrypt s.params s.block s.key = .ok t.output)

/-- 44_block_codec.md R174: the same for DECRYPT, which writes both stores. -/
def Obligations.DecryptResult : Prop :=
  encode .decrypt = 0x0041#16 ∧ ∀ s : State,
    (s.blkLen ≠ 64#16 → exec .decrypt s = .next { s with status := 0x0026#16 }) ∧
    (s.blkLen = 64#16 → s.keyLen ≠ 128#16 → exec .decrypt s = .next { s with status := 0x0036#16 }) ∧
    (s.blkLen = 64#16 → s.keyLen = 128#16 → ∃ t : State, exec .decrypt s = .next t ∧
      t = { s with ze := kse s.key, zd := ksd s.params (kse s.key),
                   y := transform s.params s.x (ksd s.params (kse s.key)), status := 0x0002#16 } ∧
      decrypt s.params s.block s.key = .ok t.output)

/-- 44_block_codec.md R174: with valid lengths the facade commands leave the very state the staged commands leave. -/
def Obligations.FacadeEqualsStaged : Prop :=
  ∀ s : State, s.blkLen = 64#16 → s.keyLen = 128#16 →
    (∃ t1 t2 : State, exec .kse s = .next t1 ∧ exec .tfe t1 = .next t2 ∧ exec .encrypt s = .next t2) ∧
    (∃ t1 t2 t3 : State, exec .kse s = .next t1 ∧ exec .ksd t1 = .next t2 ∧ exec .tfd t2 = .next t3 ∧
      exec .decrypt s = .next t3)

/-- 44_block_codec.md R175 on the machine: in TEXTBOOK mode with MULINV_ZERO = 0, ENCRYPT and then DECRYPT of its output
under the same key give the block back, for every block and key. -/
def Obligations.RoundTripTextbook : Prop :=
  ∀ s : State, s.params.mulZeroMode = .textbook → s.params.mulinvZero = 0#16 → s.blkLen = 64#16 → s.keyLen = 128#16 →
    ∃ t u : State, exec .encrypt s = .next t ∧ exec .decrypt { t with x := t.y } = .next u ∧ u.y = s.x

/-- 44_block_codec.md R175, the condition the spec derives for LITERAL mode, on the machine. -/
def Obligations.RoundTripLiteral : Prop :=
  ∀ s : State, s.params.mulZeroMode = .literal → s.blkLen = 64#16 → s.keyLen = 128#16 →
    TransformUndone s.params s.x (kse s.key) →
    ∃ t u : State, exec .encrypt s = .next t ∧ exec .decrypt { t with x := t.y } = .next u ∧ u.y = s.x

/-- 44_block_codec.md R175: the unrestricted round trip is false in the default configuration. -/
def Obligations.RoundTripFailsInLiteral : Prop :=
  ¬ ∀ s t u : State, s.params = Params.default → s.blkLen = 64#16 → s.keyLen = 128#16 →
    exec .encrypt s = .next t → exec .decrypt { t with x := t.y } = .next u → u.y = s.x

/-- 44_block_codec.md R176, 10_state.md R37: the values ENCRYPT and DECRYPT write are functions of X, K, the two lengths and
the parameters alone; what Y, RES, ZE, ZD, OPA, OPB, CMD and STATUS held before has no influence. -/
def Obligations.FacadeIgnoresHistory : Prop :=
  ∀ (i : Instr) (s s' : State), i = .encrypt ∨ i = .decrypt → s.params = s'.params → s.x = s'.x → s.k = s'.k →
    s.blkLen = s'.blkLen → s.keyLen = s'.keyLen →
    ∃ t t' : State, exec i s = .next t ∧ exec i s' = .next t' ∧ t.status = t'.status ∧
      ∀ r, writes i r = true → t.status = 0x0002#16 → t.reg r = t'.reg r

/-- 44_block_codec.md R176: issued twice with the same inputs, ENCRYPT and DECRYPT leave the same state. -/
def Obligations.FacadeRepeatable : Prop :=
  ∀ (i : Instr) (s t : State), i = .encrypt ∨ i = .decrypt → exec i s = .next t → exec i t = .next t

/-! ### Errors -/

/-- 60_exceptions.md R200, R205: an error is exactly one register write, STATUS <- 0x0006 + 16 * code, with the codes 1 to
4, and the fields of STATUS then read BUSY=0, DONE=1, ERR=1, ERRCODE=code. -/
def Obligations.RaiseWritesStatusOnly : Prop :=
  ∀ (e : ErrKind) (s : State),
    s.raise e = { s with status := BitVec.ofNat 16 (0x0006 + 16 * e.code) } ∧
    statusBusy (s.raise e).status = false ∧ statusDone (s.raise e).status = true ∧ statusErr (s.raise e).status = true ∧
    (statusErrCode (s.raise e).status).toNat =
      (match e with | .lengthMismatch => 1 | .invalidBlockLength => 2 | .invalidKeyLength => 3 | .illegalCommand => 4)

/-- 60_exceptions.md R202 to R204: the fixed order of the checks. An illegal word outranks the lengths, the block length
outranks the key length, and a command whose lengths are right ends without error. -/
def Obligations.ErrorPriority : Prop :=
  (∀ s : State, (∀ i : Instr, decode s.cmd ≠ .ok i) → engineStep s = .next { s with status := 0x0046#16 }) ∧
  (∀ (i : Instr) (s : State),
    (takesBlock i = true → s.blkLen ≠ 64#16 → exec i s = .next { s with status := 0x0026#16 }) ∧
    ((takesBlock i = true → s.blkLen = 64#16) → takesKey i = true → s.keyLen ≠ 128#16 →
      exec i s = .next { s with status := 0x0036#16 }) ∧
    (LengthsOk i s → ∃ t : State, exec i s = .next t ∧ t.status = 0x0002#16))

/-- 60_exceptions.md R207: a completion step that ends with ERR set has written no register but STATUS, and nothing of the
model's own. -/
def Obligations.NoPartialOutput : Prop :=
  ∀ s t : State, engineStep s = .next t → statusErr t.status = true → t = { s with status := t.status }

/-- 60_exceptions.md R201, 10_state.md R29: whatever the state, a completion step ends with one of four values of STATUS, all
of them DONE and not BUSY, and LengthMismatch (0x0016) is none of them. -/
def Obligations.CompletionStatus : Prop :=
  ∀ s t : State, engineStep s = .next t →
    (t.status = 0x0002#16 ∨ t.status = 0x0026#16 ∨ t.status = 0x0036#16 ∨ t.status = 0x0046#16) ∧
    statusBusy t.status = false ∧ statusDone t.status = true

/-- 60_exceptions.md R208: after an error the engine behaves as after a success: a host write leaves the same state but for
STATUS, and the same state where it is a command. -/
def Obligations.ErrorIsIdle : Prop :=
  ∀ (s : State) (e : ErrKind) (v : Word),
    (s.raise e).busy = false ∧ s.finish.busy = false ∧
    memWrite (s.raise e) 0x00#8 v = memWrite s.finish 0x00#8 v ∧
    ∀ a, memWrite (s.raise e) a v = { memWrite s.finish a v with status := (memWrite (s.raise e) a v).status }

/-- 60_exceptions.md R208: while idle, STATUS (with ERR and ERRCODE) changes only by an accepted write of CMD or by reset.
That these are lines of `script` is the model's choice (notes/assumptions/3). -/
def Obligations.StatusStaysUntilCommand : Prop :=
  ∀ s t : State, s.busy = false → step s = .next t → t.status ≠ s.status →
    (∃ v rest, s.script = .wr 0x00#8 v :: rest ∧ t.status = 0x0001#16) ∨
    (∃ rest, s.script = .reset :: rest ∧ t.status = 0x0000#16)

/-! ### Frames -/

/-- 30_encoding.md R71 and 10_state.md R21 to R31: whatever a command answers, only the registers of its "writes" column and
STATUS may change; so no command writes a host-writable register. -/
def Obligations.CommandFrame : Prop :=
  ∀ (i : Instr) (s t : State), exec i s = .next t →
    SameRest s t ∧
    (∀ r : Reg, writes i r = false → r ≠ .status → t.reg r = s.reg r) ∧
    (∀ r : Reg, r.access = .rw → t.reg r = s.reg r)

/-! ### The port -/

/-- 10_state.md R20: the register map, with the table's numbers and its column "host access". An index names a register
exactly when it is that register's index; the indices 17 to 3F, 74 to 7F and B4 to FF name none, and 127 name one. -/
def Obligations.RegisterMap : Prop :=
  (regAt 0x00#8 = some .cmd ∧ regAt 0x01#8 = some .status ∧ regAt 0x02#8 = some .blkLen ∧ regAt 0x03#8 = some .keyLen ∧
    (∀ i : Fin 4, regAt (BitVec.ofNat 8 (0x04 + i.val)) = some (.x i)) ∧
    (∀ i : Fin 8, regAt (BitVec.ofNat 8 (0x08 + i.val)) = some (.k i)) ∧
    (∀ i : Fin 4, regAt (BitVec.ofNat 8 (0x10 + i.val)) = some (.y i)) ∧
    regAt 0x14#8 = some .opa ∧ regAt 0x15#8 = some .opb ∧ regAt 0x16#8 = some .res ∧
    (∀ i : Fin 52, regAt (BitVec.ofNat 8 (0x40 + i.val)) = some (.ze i)) ∧
    (∀ i : Fin 52, regAt (BitVec.ofNat 8 (0x80 + i.val)) = some (.zd i))) ∧
  (∀ r : Reg, r.access = .ro ↔
    r = .status ∨ (∃ i, r = .y i) ∨ r = .res ∨ (∃ i, r = .ze i) ∨ (∃ i, r = .zd i)) ∧
  (∀ (a : Index) (r : Reg), regAt a = some r ↔ a = r.index) ∧
  (∀ a : Index, regAt a = none ↔
    (0x17 ≤ a.toNat ∧ a.toNat ≤ 0x3F) ∨ (0x74 ≤ a.toNat ∧ a.toNat ≤ 0x7F) ∨ 0xB4 ≤ a.toNat) ∧
  (Finset.univ.filter fun n : Fin 256 => (regAt (BitVec.ofFin n)).isSome).card = 127

/-- 20_memory.md R52, R57: a read returns the named register's current value whatever BUSY is, and 0x0000 at an index that
names none; the host's RD line records it and changes no register. That the line stands in `script`, that the value goes to
`reads` and whose turn it is are the model's choices (notes/assumptions/2 and 3). -/
def Obligations.HostRead : Prop :=
  (∀ (s : State) (r : Reg), memRead s r.index = s.reg r) ∧
  (∀ (s : State) (a : Index), (∀ r : Reg, a ≠ r.index) → memRead s a = 0x0000#16) ∧
  (∀ (s : State) (a : Index) (rest : List HostLine), s.script = .rd a :: rest → s.nextAgent = .host →
    ∃ t : State, step s = .next t ∧
      t = { s.takeTurn with script := rest, reads := s.reads ++ [memRead s a] } ∧ SameRegisters s t ∧ t.params = s.params)

/-- 30_encoding.md R80, 20_memory.md R63: when the host moves, WAIT stays where it is as long as the command is pending and is
passed once BUSY is clear, and it changes no register; the word it read is kept. That the line stands in `script` and the
word in `polled` are the model's choices (notes/assumptions/3 and 10). -/
def Obligations.WaitPolls : Prop :=
  ∀ (s : State) (rest : List HostLine), s.script = .wait :: rest → s.nextAgent = .host →
    ∃ t : State, step s = .next t ∧ SameRegisters s t ∧ t.params = s.params ∧ t.reads = s.reads ∧
      t.polled = s.status ∧ t.calls = s.calls ∧ (s.busy = true → t.script = .wait :: rest) ∧ (s.busy = false → t.script = rest)

/-- 20_memory.md R53, R56, R57, R62, 30_encoding.md R73: every case of a host write. -/
def Obligations.HostWrite : Prop :=
  ∀ (s : State) (v : Word),
    (∀ a, s.busy = true → memWrite s a v = s) ∧
    (s.busy = false → memWrite s 0x00#8 v = { s with cmd := v, status := 0x0001#16 }) ∧
    (∀ r : Reg, s.busy = false → r.access = .rw → r ≠ .cmd →
      (memWrite s r.index v).reg r = v ∧ (∀ r' : Reg, r' ≠ r → (memWrite s r.index v).reg r' = s.reg r') ∧
      SameRest s (memWrite s r.index v)) ∧
    (∀ r : Reg, r.access = .ro → memWrite s r.index v = s) ∧
    (∀ a, (∀ r : Reg, a ≠ r.index) → memWrite s a v = s)

/-- What a step does with the host's other lines. A write line is that write (20_memory.md R51, R53, 30_encoding.md R79), so
the command line of an idle engine is accepted and, when the engine moves next, the step after it is the command's meaning
(R73, R74). In a call the caller branches on the word its WAIT read last, and after the four reads their words, the first
leftmost, are the result (70_reset_and_hazards.md R236). When the run is over a step changes nothing (R251, 60_exceptions.md
R225). That lines stand in `script`, that `turns` says who moves, and the fields of a call are the model's choices
(notes/assumptions/2, 3 and 10). -/
def Obligations.HostLineSteps : Prop :=
  (∀ (s : State) (a : Index) (v : Word) (rest : List HostLine), s.script = .wr a v :: rest → s.nextAgent = .host →
    step s = .next (memWrite { s.takeTurn with script := rest } a v)) ∧
  (∀ (s : State) (i : Instr) (rest : List HostLine), s.script = .wr 0x00#8 (encode i) :: rest → s.busy = false →
    ∃ t : State, step s = .next t ∧ t = { s with cmd := encode i, status := 0x0001#16, script := rest } ∧
      (s.turns.headD .engine = .engine → step t = exec i { t with turns := s.turns.tail })) ∧
  (∀ (s : State) (rest : List HostLine), s.script = .check :: rest → s.nextAgent = .host →
    (statusErr s.polled = true →
      step s = .next { s.takeTurn with script := rest, calls := s.calls ++ [.failed (statusErrCode s.polled)] }) ∧
    (statusErr s.polled = false →
      step s = .next { s.takeTurn with
        script := [.rd 0x10#8, .rd 0x11#8, .rd 0x12#8, .rd 0x13#8, .result] ++ rest })) ∧
  (∀ (s : State) (rest : List HostLine) (old : List Word) (y0 y1 y2 y3 : Word), s.script = .result :: rest →
    s.nextAgent = .host → s.reads = old ++ [y0, y1, y2, y3] →
    step s = .next { s.takeTurn with script := rest, calls := s.calls ++ [.result (y0 ++ (y1 ++ (y2 ++ y3)))] }) ∧
  (∀ s : State, RunOver s → step s = .next s)

/-- 20_memory.md R61, R62: while a command is pending no host line but reset changes any register, so its operands stay as
they were accepted; writes are discarded. The line and the turn are the model's (notes/assumptions/2 and 3). -/
def Obligations.PendingOperandsFixed : Prop :=
  ∀ s t : State, s.busy = true → s.nextAgent = .host → (∀ rest, s.script ≠ .reset :: rest) → step s = .next t →
    SameRegisters s t ∧ t.params = s.params

/-! ### The step -/

/-- 30_encoding.md R74: when a command is pending and the engine moves, the step is the meaning of the command the word in
CMD decodes to; around it the step only uses up a turn, the model's choice (notes/assumptions/2). -/
def Obligations.StepRunsCommand : Prop :=
  ∀ (s : State) (i : Instr), s.busy = true → s.turns.headD .engine = .engine → decode s.cmd = .ok i →
    step s = exec i { s with turns := s.turns.tail }

/-- 30_encoding.md R74, 60_exceptions.md R204: and when the word is no command, IllegalCommand. That the head of `turns`
decides who moves and is used up is the model's choice (notes/assumptions/2). -/
def Obligations.StepRejectsIllegal : Prop :=
  ∀ s : State, s.busy = true → s.turns.headD .engine = .engine → (∀ i : Instr, decode s.cmd ≠ .ok i) →
    step s = .next { s with turns := s.turns.tail, status := 0x0046#16 }

/-- 70_reset_and_hazards.md R238: nothing stops the machine: every step, and every command's meaning, answers a next state. -/
def Obligations.NothingStops : Prop :=
  (∀ s : State, ∃ t : State, step s = .next t) ∧ (∀ (i : Instr) (s : State), ∃ t : State, exec i s = .next t)

/-- 70_reset_and_hazards.md R238, R250: a pending command is over after at most one step more than the host has turns.
The bound is the model's (notes/assumptions/2): the spec gives weak fairness only. -/
def Obligations.PendingEnds : Prop :=
  ∀ s : State, s.busy = true →
    ∃ n, n ≤ s.turns.length + 1 ∧ ∃ t : State, Host.Core.run Sys2Proof.core n s = .next t ∧ t.busy = false

/-- 95_test_vectors.md PG5: both orders of a pending completion and the host's next line are behaviours of the model, for
every state in which a command is pending: only the turns differ. That the head of `turns` says who moves is the model's
choice (notes/assumptions/2). -/
def Obligations.BothOrdersAllowed : Prop :=
  ∀ s : State, s.busy = true →
    step { s with turns := .engine :: s.turns } = engineStep s ∧
    step { s with turns := .host :: s.turns } = .next (hostStep s)

/-! ### The call of the boundary -/

/-- 70_reset_and_hazards.md R236: a facade command issued by an idle host on any registers and lengths, in whichever order the
agents move, comes to an end, and its caller has then been given the error kind (2 for the block, 3 for the key) and read
nothing, or the function's value of the block and the key; the key, the block and the lengths keep their values, so the
next block needs only new X0..X3. The script is the model's (notes/assumptions/3 and 10). -/
def Obligations.CallAnswered : Prop :=
  ∀ (i : Instr) (s : State) (rest : List HostLine), i = .encrypt ∨ i = .decrypt → s.busy = false →
    s.script = macroIssue i ++ rest →
    ∃ (n : Nat) (t : State), Host.Core.run Sys2Proof.core n s = .next t ∧ t.busy = false ∧ t.script = rest ∧
      t.x = s.x ∧ t.k = s.k ∧ t.blkLen = s.blkLen ∧ t.keyLen = s.keyLen ∧ t.params = s.params ∧
      (s.blkLen ≠ 64#16 → t.calls = s.calls ++ [.failed 2#4] ∧ t.reads = s.reads) ∧
      (s.blkLen = 64#16 → s.keyLen ≠ 128#16 → t.calls = s.calls ++ [.failed 3#4] ∧ t.reads = s.reads) ∧
      (s.blkLen = 64#16 → s.keyLen = 128#16 → ∃ b : Block,
        (i = .encrypt → encrypt s.params s.block s.key = .ok b) ∧
        (i = .decrypt → decrypt s.params s.block s.key = .ok b) ∧
        t.calls = s.calls ++ [.result b] ∧ t.reads = s.reads ++ t.y.toList)

/-- 70_reset_and_hazards.md R236, the whole sequence: from any idle state the call of `encrypt` or `decrypt` with a key and a
block ends, and its caller is given the function's value of that block and that key, which stay in the registers. The
script is the model's (notes/assumptions/3 and 10). -/
def Obligations.BoundaryCall : Prop :=
  ∀ (i : Instr) (s : State) (key : Vector Word 8) (block : Quad) (rest : List HostLine), i = .encrypt ∨ i = .decrypt →
    s.busy = false → s.script = macroCall i key block ++ rest →
    ∃ (n : Nat) (t : State) (b : Block), Host.Core.run Sys2Proof.core n s = .next t ∧ t.busy = false ∧ t.script = rest ∧
      t.k = key ∧ t.x = block ∧ t.calls = s.calls ++ [.result b] ∧
      (i = .encrypt → encrypt s.params (joinBlock block) (joinKey key) = .ok b) ∧
      (i = .decrypt → decrypt s.params (joinBlock block) (joinKey key) = .ok b)

/-! ### Reset and invariants -/

/-- 70_reset_and_hazards.md R230, R231, R233: reset, taken at any moment the host can move and also while a command is
pending, leaves every register 0x0000 and no trace of the command, and does not change the parameters. That it leaves the
host's script, turns, reads, polled word and calls, and that it is a line of the script, are the model's choices
(notes/assumptions/2, 3 and 10). -/
def Obligations.ResetClearsRegisters : Prop :=
  (∀ s : State, (∀ r : Reg, s.applyReset.reg r = 0x0000#16) ∧ SameRest s s.applyReset) ∧
  (∀ (s : State) (rest : List HostLine), s.script = .reset :: rest → s.nextAgent = .host →
    ∃ t : State, step s = .next t ∧ (∀ r : Reg, t.reg r = 0x0000#16) ∧ t.params = s.params ∧ t.busy = false ∧
      t.script = rest)

/-- 10_state.md R40, 00_scope.md R8, R9: the machine right after reset: every register 0x0000, LITERAL, MULINV_ZERO 0x0000;
a facade command issued then ends in InvalidBlockLength and KSE in InvalidKeyLength. That the state after reset carries the
parameters, at the spec's defaults, is the model's choice (notes/assumptions/1). -/
def Obligations.ResetState : Prop :=
  (∀ r : Reg, State.reset.reg r = 0x0000#16) ∧
  State.reset.params = { mulZeroMode := .literal, mulinvZero := 0x0000#16 } ∧
  exec .encrypt State.reset = .next { State.reset with status := 0x0026#16 } ∧
  exec .decrypt State.reset = .next { State.reset with status := 0x0026#16 } ∧
  exec .kse State.reset = .next { State.reset with status := 0x0036#16 }

/-- The invariant holds right after reset. -/
def Obligations.ResetMeetsInvariant : Prop := Inv State.reset

/-- Every step keeps the invariant: STATUS has one of its six values (10_state.md R29) and fits the command word, the stores
hold only whole derivations from a key (42_key_scheduler.md R138), and before the first command there is no result. -/
def Obligations.StepKeepsInvariant : Prop :=
  ∀ s t : State, Inv s → step s = .next t → Inv t

/-- 70_reset_and_hazards.md R233: no step, be it a command, a transaction or reset, changes the parameters. -/
def Obligations.ParametersFixed : Prop :=
  ∀ s t : State, step s = .next t → t.params = s.params

/-- 42_key_scheduler.md R138, 20_memory.md R56: from every state, the host cannot plant a schedule: a store changes in one
step only to the zeros of reset or to a whole fresh derivation by KSE, KSD, ENCRYPT or DECRYPT. -/
def Obligations.StoresWrittenWhole : Prop :=
  ∀ s t : State, step s = .next t →
    (t.ze ≠ s.ze → t.ze = Vector.replicate 52 0#16 ∨ t.ze = kse s.key) ∧
    (t.zd ≠ s.zd → t.zd = Vector.replicate 52 0#16 ∨ t.zd = ksd s.params s.ze ∨ t.zd = ksd s.params (kse s.key))
end

