-- ==== Sys2Proof/Laws/State.lean ====
section
/-! SUPPORT. One lemma per field and update: what each shared update of the state leaves in each field. -/

namespace Sys2Proof.Machine

variable (s : State) (e : ErrKind) (v w : Word)

/-! ### `finish` -/

@[simp] theorem State.finish_params : (s.finish).params = s.params := rfl
@[simp] theorem State.finish_cmd : (s.finish).cmd = s.cmd := rfl
@[simp] theorem State.finish_status : (s.finish).status = doneStatus := rfl
@[simp] theorem State.finish_blkLen : (s.finish).blkLen = s.blkLen := rfl
@[simp] theorem State.finish_keyLen : (s.finish).keyLen = s.keyLen := rfl
@[simp] theorem State.finish_x : (s.finish).x = s.x := rfl
@[simp] theorem State.finish_k : (s.finish).k = s.k := rfl
@[simp] theorem State.finish_y : (s.finish).y = s.y := rfl
@[simp] theorem State.finish_opa : (s.finish).opa = s.opa := rfl
@[simp] theorem State.finish_opb : (s.finish).opb = s.opb := rfl
@[simp] theorem State.finish_res : (s.finish).res = s.res := rfl
@[simp] theorem State.finish_ze : (s.finish).ze = s.ze := rfl
@[simp] theorem State.finish_zd : (s.finish).zd = s.zd := rfl
@[simp] theorem State.finish_script : (s.finish).script = s.script := rfl
@[simp] theorem State.finish_turns : (s.finish).turns = s.turns := rfl
@[simp] theorem State.finish_reads : (s.finish).reads = s.reads := rfl
@[simp] theorem State.finish_polled : (s.finish).polled = s.polled := rfl
@[simp] theorem State.finish_calls : (s.finish).calls = s.calls := rfl

/-! ### `raise` -/

@[simp] theorem State.raise_params : (s.raise e).params = s.params := rfl
@[simp] theorem State.raise_cmd : (s.raise e).cmd = s.cmd := rfl
@[simp] theorem State.raise_status : (s.raise e).status = errStatus e := rfl
@[simp] theorem State.raise_blkLen : (s.raise e).blkLen = s.blkLen := rfl
@[simp] theorem State.raise_keyLen : (s.raise e).keyLen = s.keyLen := rfl
@[simp] theorem State.raise_x : (s.raise e).x = s.x := rfl
@[simp] theorem State.raise_k : (s.raise e).k = s.k := rfl
@[simp] theorem State.raise_y : (s.raise e).y = s.y := rfl
@[simp] theorem State.raise_opa : (s.raise e).opa = s.opa := rfl
@[simp] theorem State.raise_opb : (s.raise e).opb = s.opb := rfl
@[simp] theorem State.raise_res : (s.raise e).res = s.res := rfl
@[simp] theorem State.raise_ze : (s.raise e).ze = s.ze := rfl
@[simp] theorem State.raise_zd : (s.raise e).zd = s.zd := rfl
@[simp] theorem State.raise_script : (s.raise e).script = s.script := rfl
@[simp] theorem State.raise_turns : (s.raise e).turns = s.turns := rfl
@[simp] theorem State.raise_reads : (s.raise e).reads = s.reads := rfl
@[simp] theorem State.raise_polled : (s.raise e).polled = s.polled := rfl
@[simp] theorem State.raise_calls : (s.raise e).calls = s.calls := rfl

/-! ### `accept` -/

@[simp] theorem State.accept_params : (s.accept v).params = s.params := rfl
@[simp] theorem State.accept_cmd : (s.accept v).cmd = v := rfl
@[simp] theorem State.accept_status : (s.accept v).status = busyStatus := rfl
@[simp] theorem State.accept_blkLen : (s.accept v).blkLen = s.blkLen := rfl
@[simp] theorem State.accept_keyLen : (s.accept v).keyLen = s.keyLen := rfl
@[simp] theorem State.accept_x : (s.accept v).x = s.x := rfl
@[simp] theorem State.accept_k : (s.accept v).k = s.k := rfl
@[simp] theorem State.accept_y : (s.accept v).y = s.y := rfl
@[simp] theorem State.accept_opa : (s.accept v).opa = s.opa := rfl
@[simp] theorem State.accept_opb : (s.accept v).opb = s.opb := rfl
@[simp] theorem State.accept_res : (s.accept v).res = s.res := rfl
@[simp] theorem State.accept_ze : (s.accept v).ze = s.ze := rfl
@[simp] theorem State.accept_zd : (s.accept v).zd = s.zd := rfl
@[simp] theorem State.accept_script : (s.accept v).script = s.script := rfl
@[simp] theorem State.accept_turns : (s.accept v).turns = s.turns := rfl
@[simp] theorem State.accept_reads : (s.accept v).reads = s.reads := rfl
@[simp] theorem State.accept_polled : (s.accept v).polled = s.polled := rfl
@[simp] theorem State.accept_calls : (s.accept v).calls = s.calls := rfl

/-! ### `applyReset` -/

@[simp] theorem State.applyReset_params : (s.applyReset).params = s.params := rfl
@[simp] theorem State.applyReset_cmd : (s.applyReset).cmd = 0x0000#16 := rfl
@[simp] theorem State.applyReset_status : (s.applyReset).status = 0x0000#16 := rfl
@[simp] theorem State.applyReset_blkLen : (s.applyReset).blkLen = 0x0000#16 := rfl
@[simp] theorem State.applyReset_keyLen : (s.applyReset).keyLen = 0x0000#16 := rfl
@[simp] theorem State.applyReset_x : (s.applyReset).x = Vector.replicate 4 0x0000#16 := rfl
@[simp] theorem State.applyReset_k : (s.applyReset).k = Vector.replicate 8 0x0000#16 := rfl
@[simp] theorem State.applyReset_y : (s.applyReset).y = Vector.replicate 4 0x0000#16 := rfl
@[simp] theorem State.applyReset_opa : (s.applyReset).opa = 0x0000#16 := rfl
@[simp] theorem State.applyReset_opb : (s.applyReset).opb = 0x0000#16 := rfl
@[simp] theorem State.applyReset_res : (s.applyReset).res = 0x0000#16 := rfl
@[simp] theorem State.applyReset_ze : (s.applyReset).ze = Vector.replicate 52 0x0000#16 := rfl
@[simp] theorem State.applyReset_zd : (s.applyReset).zd = Vector.replicate 52 0x0000#16 := rfl
@[simp] theorem State.applyReset_script : (s.applyReset).script = s.script := rfl
@[simp] theorem State.applyReset_turns : (s.applyReset).turns = s.turns := rfl
@[simp] theorem State.applyReset_reads : (s.applyReset).reads = s.reads := rfl
@[simp] theorem State.applyReset_polled : (s.applyReset).polled = s.polled := rfl
@[simp] theorem State.applyReset_calls : (s.applyReset).calls = s.calls := rfl

/-! ### `takeTurn` -/

@[simp] theorem State.takeTurn_params : (s.takeTurn).params = s.params := by unfold State.takeTurn; split <;> rfl
@[simp] theorem State.takeTurn_cmd : (s.takeTurn).cmd = s.cmd := by unfold State.takeTurn; split <;> rfl
@[simp] theorem State.takeTurn_status : (s.takeTurn).status = s.status := by unfold State.takeTurn; split <;> rfl
@[simp] theorem State.takeTurn_blkLen : (s.takeTurn).blkLen = s.blkLen := by unfold State.takeTurn; split <;> rfl
@[simp] theorem State.takeTurn_keyLen : (s.takeTurn).keyLen = s.keyLen := by unfold State.takeTurn; split <;> rfl
@[simp] theorem State.takeTurn_x : (s.takeTurn).x = s.x := by unfold State.takeTurn; split <;> rfl
@[simp] theorem State.takeTurn_k : (s.takeTurn).k = s.k := by unfold State.takeTurn; split <;> rfl
@[simp] theorem State.takeTurn_y : (s.takeTurn).y = s.y := by unfold State.takeTurn; split <;> rfl
@[simp] theorem State.takeTurn_opa : (s.takeTurn).opa = s.opa := by unfold State.takeTurn; split <;> rfl
@[simp] theorem State.takeTurn_opb : (s.takeTurn).opb = s.opb := by unfold State.takeTurn; split <;> rfl
@[simp] theorem State.takeTurn_res : (s.takeTurn).res = s.res := by unfold State.takeTurn; split <;> rfl
@[simp] theorem State.takeTurn_ze : (s.takeTurn).ze = s.ze := by unfold State.takeTurn; split <;> rfl
@[simp] theorem State.takeTurn_zd : (s.takeTurn).zd = s.zd := by unfold State.takeTurn; split <;> rfl
@[simp] theorem State.takeTurn_script : (s.takeTurn).script = s.script := by unfold State.takeTurn; split <;> rfl
@[simp] theorem State.takeTurn_turns : (s.takeTurn).turns = if s.busy then s.turns.tail else s.turns := by unfold State.takeTurn; split <;> rfl
@[simp] theorem State.takeTurn_reads : (s.takeTurn).reads = s.reads := by unfold State.takeTurn; split <;> rfl
@[simp] theorem State.takeTurn_polled : (s.takeTurn).polled = s.polled := by unfold State.takeTurn; split <;> rfl
@[simp] theorem State.takeTurn_calls : (s.takeTurn).calls = s.calls := by unfold State.takeTurn; split <;> rfl

/-! ### `pending` -/

@[simp] theorem State.pending_params : (s.pending w).params = s.params := rfl
@[simp] theorem State.pending_cmd : (s.pending w).cmd = w := rfl
@[simp] theorem State.pending_status : (s.pending w).status = busyStatus := rfl
@[simp] theorem State.pending_blkLen : (s.pending w).blkLen = s.blkLen := rfl
@[simp] theorem State.pending_keyLen : (s.pending w).keyLen = s.keyLen := rfl
@[simp] theorem State.pending_x : (s.pending w).x = s.x := rfl
@[simp] theorem State.pending_k : (s.pending w).k = s.k := rfl
@[simp] theorem State.pending_y : (s.pending w).y = s.y := rfl
@[simp] theorem State.pending_opa : (s.pending w).opa = s.opa := rfl
@[simp] theorem State.pending_opb : (s.pending w).opb = s.opb := rfl
@[simp] theorem State.pending_res : (s.pending w).res = s.res := rfl
@[simp] theorem State.pending_ze : (s.pending w).ze = s.ze := rfl
@[simp] theorem State.pending_zd : (s.pending w).zd = s.zd := rfl
@[simp] theorem State.pending_script : (s.pending w).script = s.script := rfl
@[simp] theorem State.pending_turns : (s.pending w).turns = .engine :: s.turns := rfl
@[simp] theorem State.pending_reads : (s.pending w).reads = s.reads := rfl
@[simp] theorem State.pending_polled : (s.pending w).polled = s.polled := rfl
@[simp] theorem State.pending_calls : (s.pending w).calls = s.calls := rfl

/-! ### What follows for BUSY and for the registers -/

@[simp] theorem State.finish_busy : s.finish.busy = false := by show statusBusy doneStatus = false; decide
@[simp] theorem State.raise_busy : (s.raise e).busy = false := by
  show statusBusy (errStatus e) = false; cases e <;> decide
@[simp] theorem State.accept_busy : (s.accept v).busy = true := by show statusBusy busyStatus = true; decide
@[simp] theorem State.applyReset_busy : s.applyReset.busy = false := by show statusBusy 0x0000#16 = false; decide
@[simp] theorem State.pending_busy : (s.pending w).busy = true := by show statusBusy busyStatus = true; decide

@[simp] theorem State.takeTurn_busy : s.takeTurn.busy = s.busy := by simp [State.busy]

@[simp] theorem State.takeTurn_reg (r : Reg) : s.takeTurn.reg r = s.reg r := by
  unfold State.takeTurn; split <;> cases r <;> rfl

@[simp] theorem State.reset_reg (r : Reg) : State.reset.reg r = 0x0000#16 := by
  cases r <;> simp [State.reg, State.reset]

/-- The four values an error leaves in `STATUS`, as numerals (60_exceptions.md R200). -/
theorem errStatus_value :
    errStatus .lengthMismatch = 0x0016#16 ∧ errStatus .invalidBlockLength = 0x0026#16 ∧
    errStatus .invalidKeyLength = 0x0036#16 ∧ errStatus .illegalCommand = 0x0046#16 := by decide

end Sys2Proof.Machine
end

