-- ==== Sys2Proof/Laws/Exec.lean ====
section
/-! SUPPORT. What a command's completion can do, said once for all eleven: its checks, and the state with its results. -/

namespace Sys2Proof.Machine

/-- The checks of a command, in their order (60_exceptions.md R203, the table). -/
def commandChecks (i : Instr) (s : State) : Except ErrKind Unit :=
  match i with
  | .xor | .add | .mul | .addinv | .mulinv | .ksd => .ok ()
  | .kse => checkKey s.keyLen.toNat
  | .tfe | .tfd => checkBlock s.blkLen.toNat
  | .encrypt | .decrypt => validate s.blkLen.toNat s.keyLen.toNat

/-- The state with a command's results written and `STATUS` not yet (30_encoding.md R71, the column "writes"). -/
def commandResult (i : Instr) (s : State) : State :=
  match i with
  | .xor => { s with res := xor16 s.opa s.opb }
  | .add => { s with res := add s.opa s.opb }
  | .mul => { s with res := mul s.params s.opa s.opb }
  | .addinv => { s with res := addinv s.opa }
  | .mulinv => { s with res := mulinv s.params s.opa }
  | .kse => { s with ze := kse s.key }
  | .ksd => { s with zd := ksd s.params s.ze }
  | .tfe => { s with y := transform s.params s.x s.ze }
  | .tfd => { s with y := transform s.params s.x s.zd }
  | .encrypt => { s with ze := kse s.key, y := transform s.params s.x (kse s.key) }
  | .decrypt =>
    { s with ze := kse s.key, zd := ksd s.params (kse s.key), y := transform s.params s.x (ksd s.params (kse s.key)) }

/-- Every meaning is its checks and then its results. -/
theorem exec_eq_guarded (i : Instr) (s : State) : exec i s = s.guarded (commandChecks i s) (commandResult i s) := by
  cases i <;> rfl

/-- A check that passes: the results are written and the command finishes. -/
theorem guarded_of_ok {s after : State} {c : Except ErrKind Unit} {u : Unit} (h : c = .ok u) :
    s.guarded c after = .next after.finish := by subst h; rfl

/-- A check that fails: only the error is raised. -/
theorem guarded_of_error {s after : State} {c : Except ErrKind Unit} {e : ErrKind} (h : c = .error e) :
    s.guarded c after = .next (s.raise e) := by subst h; rfl

/-- Everything a guarded completion can answer. -/
theorem guarded_cases {s after t : State} {c : Except ErrKind Unit} (h : s.guarded c after = .next t) :
    (∃ e, c = .error e ∧ t = s.raise e) ∨ (c = .ok () ∧ t = after.finish) := by
  cases c with
  | error e => exact .inl ⟨e, rfl, by simpa [State.guarded] using h.symm⟩
  | ok u => exact .inr ⟨rfl, by simpa [State.guarded] using h.symm⟩

/-- A 16-bit length is 64 as a number exactly when it is the word 64, and so for 128 (10_state.md R30, R31). -/
theorem length_eq_iff (w : Word) (n : Nat) (h : n < 65536) : w.toNat = n ↔ w = BitVec.ofNat 16 n := by
  constructor
  · rintro rfl; simp
  · rintro rfl; simp; omega

/-- The three checks on length registers, as they compare the words. -/
theorem checkBlock_word (w : Word) :
    checkBlock w.toNat = if w = 64#16 then .ok () else .error .invalidBlockLength := by
  by_cases h : w = 64#16
  · subst h; rfl
  · have : w.toNat ≠ 64 := fun hn => h ((length_eq_iff w 64 (by omega)).1 hn)
    simp [checkBlock, h, this]

theorem checkKey_word (w : Word) :
    checkKey w.toNat = if w = 128#16 then .ok () else .error .invalidKeyLength := by
  by_cases h : w = 128#16
  · subst h; rfl
  · have : w.toNat ≠ 128 := fun hn => h ((length_eq_iff w 128 (by omega)).1 hn)
    simp [checkKey, h, this]

theorem validate_word (n m : Word) :
    validate n.toNat m.toNat =
      if n = 64#16 then if m = 128#16 then .ok () else .error .invalidKeyLength else .error .invalidBlockLength := by
  unfold validate
  rw [checkBlock_word, checkKey_word]
  by_cases h : n = 64#16 <;> simp [h]

/-- The checks pass when the lengths the command needs are right. -/
theorem commandChecks_of_lengthsOk {i : Instr} {s : State} (h : LengthsOk i s) : commandChecks i s = .ok () := by
  obtain ⟨hb, hk⟩ := h
  cases i <;> simp_all only [commandChecks, takesBlock, takesKey, checkBlock_word, checkKey_word, validate_word, if_true]

/-- The checks can fail only with a length error, of a command that takes that operand. -/
theorem commandChecks_error {i : Instr} {s : State} {e : ErrKind} (h : commandChecks i s = .error e) :
    (e = .invalidBlockLength ∧ takesBlock i = true ∧ s.blkLen ≠ 64#16) ∨
    (e = .invalidKeyLength ∧ takesKey i = true ∧ s.keyLen ≠ 128#16) := by
  by_cases hb : s.blkLen = 64#16 <;> by_cases hk : s.keyLen = 128#16 <;> cases i <;>
    simp only [commandChecks, checkBlock_word, checkKey_word, validate_word, hb, hk, if_true, if_false, reduceCtorEq,
      Except.error.injEq] at h <;>
    simp_all [takesBlock, takesKey]

/-- Everything a command can answer: one length error, or its results. -/
theorem exec_cases {i : Instr} {s t : State} (h : exec i s = .next t) :
    (takesBlock i = true ∧ s.blkLen ≠ 64#16 ∧ t = s.raise .invalidBlockLength) ∨
    (takesKey i = true ∧ s.keyLen ≠ 128#16 ∧ t = s.raise .invalidKeyLength) ∨
    (commandChecks i s = .ok () ∧ t = (commandResult i s).finish) := by
  rw [exec_eq_guarded] at h
  obtain ⟨e, hc, rfl⟩ | ⟨hc, rfl⟩ := guarded_cases h
  · obtain ⟨rfl, h1, h2⟩ | ⟨rfl, h1, h2⟩ := commandChecks_error hc
    · exact .inl ⟨h1, h2, rfl⟩
    · exact .inr (.inl ⟨h1, h2, rfl⟩)
  · exact .inr (.inr ⟨hc, rfl⟩)

/-- Everything the engine's step can answer. -/
theorem engineStep_cases {s t : State} (h : engineStep s = .next t) :
    ((∀ i : Instr, decode s.cmd ≠ .ok i) ∧ t = s.raise .illegalCommand) ∨
    (∃ i, decode s.cmd = .ok i ∧ exec i s = .next t) := by
  unfold engineStep State.commandWord at h
  cases hd : decode s.cmd with
  | error r => rw [hd] at h; exact .inl ⟨by simp, by simpa [execIllegal] using h.symm⟩
  | ok i => rw [hd] at h; exact .inr ⟨i, rfl, h⟩

end Sys2Proof.Machine
end

