-- ==== Sys2Proof/Laws/PerInstr.lean ====
section
/-! SUPPORT. Per command: its word is well formed and holds the fields of opcode_table.json (30_encoding.md R70, R71). -/

namespace Sys2Proof.Laws.CommandFields

/-- RSV is zero, UNIT and FUNC are the command's, and the whole is well formed. -/
def Statement (i : Instr) : Prop :=
  i.wellFormed = true ∧ wordWellFormed (encode i) = true ∧ rsvField (encode i) = 0x00#8 ∧
  unitField (encode i) = i.component.unit ∧ funcField (encode i) = i.func

theorem xor : Statement .xor := by unfold Statement; decide
theorem add : Statement .add := by unfold Statement; decide
theorem mul : Statement .mul := by unfold Statement; decide
theorem addinv : Statement .addinv := by unfold Statement; decide
theorem mulinv : Statement .mulinv := by unfold Statement; decide
theorem kse : Statement .kse := by unfold Statement; decide
theorem ksd : Statement .ksd := by unfold Statement; decide
theorem tfe : Statement .tfe := by unfold Statement; decide
theorem tfd : Statement .tfd := by unfold Statement; decide
theorem encrypt : Statement .encrypt := by unfold Statement; decide
theorem decrypt : Statement .decrypt := by unfold Statement; decide

end Sys2Proof.Laws.CommandFields
end

