-- ==== Sys2Proof/Laws/Port.lean ====
section
/-! SUPPORT. What a host transaction and a host line can do. -/

namespace Sys2Proof.Machine

/-- A register's index names that register (10_state.md R20). -/
theorem regAt_index (r : Reg) : regAt r.index = some r := by
  cases r with
  | x i => revert i; decide
  | k i => revert i; decide
  | y i => revert i; decide
  | ze i => revert i; decide
  | zd i => revert i; decide
  | _ => rfl

/-- A store in a register reads back in it when the host may write it and it is not `CMD`. -/
theorem store_reg_self {s : State} {r : Reg} {v : Word} (hr : r.access = .rw) (hc : r ≠ .cmd) :
    (s.store r v).reg r = v := by
  cases r <;> simp_all [Reg.access, State.store, State.reg]

/-- A store leaves every other register, but for `STATUS` when it is a command. -/
theorem store_reg_of_ne {s : State} {r r' : Reg} {v : Word} (h : r' ≠ r) (hc : r ≠ .cmd) :
    (s.store r v).reg r' = s.reg r' := by
  cases r with
  | x i => cases r' with
    | x j =>
      have : i.val ≠ j.val := fun e => h (by rw [Fin.ext e])
      simp [State.store, State.reg, this]
    | _ => rfl
  | k i => cases r' with
    | k j =>
      have : i.val ≠ j.val := fun e => h (by rw [Fin.ext e])
      simp [State.store, State.reg, this]
    | _ => rfl
  | _ => cases r' <;> first | rfl | exact absurd rfl h | exact absurd rfl hc

/-- Every case of a host write (20_memory.md R53). -/
theorem memWrite_cases (s : State) (a : Index) (v : Word) :
    (s.busy = true ∧ memWrite s a v = s) ∨
    (s.busy = false ∧ regAt a = none ∧ memWrite s a v = s) ∨
    (s.busy = false ∧ ∃ r, regAt a = some r ∧ memWrite s a v = s.store r v) := by
  unfold memWrite
  cases hb : s.busy with
  | true => exact .inl ⟨rfl, by simp⟩
  | false =>
    cases hr : regAt a with
    | none => exact .inr (.inl ⟨rfl, rfl, by simp⟩)
    | some r => exact .inr (.inr ⟨rfl, r, rfl, by simp⟩)

/-- A write never touches the configuration, the host's script, the turns or what was read. -/
theorem memWrite_rest (s : State) (a : Index) (v : Word) : SameRest s (memWrite s a v) := by
  obtain ⟨_, h⟩ | ⟨_, _, h⟩ | ⟨_, r, _, h⟩ := memWrite_cases s a v <;> rw [h]
  · exact ⟨rfl, rfl, rfl, rfl, rfl, rfl⟩
  · exact ⟨rfl, rfl, rfl, rfl, rfl, rfl⟩
  · cases r <;> exact ⟨rfl, rfl, rfl, rfl, rfl, rfl⟩

/-- What performing the first host line does, line by line. -/
theorem hostStep_wr {s : State} {a : Index} {v : Word} {rest : List HostLine} (h : s.script = .wr a v :: rest) :
    hostStep s = memWrite { s with script := rest } a v := by simp [hostStep, h]

theorem hostStep_rd {s : State} {a : Index} {rest : List HostLine} (h : s.script = .rd a :: rest) :
    hostStep s = { s with script := rest, reads := s.reads ++ [memRead s a] } := by simp [hostStep, h]

theorem hostStep_wait {s : State} {rest : List HostLine} (h : s.script = .wait :: rest) :
    hostStep s = { s with polled := s.status, script := if s.busy then .wait :: rest else rest } := by
  cases hb : statusBusy s.status <;> simp [hostStep, h, memRead, regAt, State.reg, State.busy, hb]

theorem hostStep_reset {s : State} {rest : List HostLine} (h : s.script = .reset :: rest) :
    hostStep s = State.applyReset { s with script := rest } := by simp [hostStep, h]

/-- The branch of a call, by the ERR bit of the word `WAIT` read last (70_reset_and_hazards.md R236). -/
theorem hostStep_check_failed {s : State} {rest : List HostLine} (h : s.script = .check :: rest)
    (he : statusErr s.polled = true) :
    hostStep s = { s with script := rest, calls := s.calls ++ [.failed (statusErrCode s.polled)] } := by
  simp [hostStep, h, he]

theorem hostStep_check_ok {s : State} {rest : List HostLine} (h : s.script = .check :: rest)
    (he : statusErr s.polled = false) : hostStep s = { s with script := macroRdout ++ .result :: rest } := by
  simp [hostStep, h, he]

/-- The end of a call that did not fail: the four words read last are its result. -/
theorem hostStep_result {s : State} {rest : List HostLine} {old : List Word} {y0 y1 y2 y3 : Word}
    (h : s.script = .result :: rest) (hr : s.reads = old ++ [y0, y1, y2, y3]) :
    hostStep s = { s with script := rest, calls := s.calls ++ [.result (joinBlock #v[y0, y1, y2, y3])] } := by
  simp [hostStep, h, hr, lastBlock]

theorem hostStep_nil {s : State} (h : s.script = []) : hostStep s = s := by simp [hostStep, h]

/-- Everything a host line can do to the engine: a write, a reset, or nothing to any register and the parameters. No
line touches the turns. -/
theorem hostStep_cases (s : State) :
    (∃ a v rest, s.script = .wr a v :: rest ∧ hostStep s = memWrite { s with script := rest } a v) ∨
    (∃ rest, s.script = .reset :: rest ∧ hostStep s = State.applyReset { s with script := rest }) ∨
    (SameRegisters s (hostStep s) ∧ (hostStep s).params = s.params ∧ (hostStep s).turns = s.turns) := by
  cases h : s.script with
  | nil => rw [hostStep_nil h]; exact .inr (.inr ⟨fun _ => rfl, rfl, rfl⟩)
  | cons line rest =>
    cases line with
    | wr a v => exact .inl ⟨a, v, rest, rfl, hostStep_wr h⟩
    | reset => exact .inr (.inl ⟨rest, rfl, hostStep_reset h⟩)
    | rd a => rw [hostStep_rd h]; exact .inr (.inr ⟨fun r => by cases r <;> rfl, rfl, rfl⟩)
    | wait => rw [hostStep_wait h]; exact .inr (.inr ⟨fun r => by cases r <;> rfl, rfl, rfl⟩)
    | check =>
      cases he : statusErr s.polled with
      | true => rw [hostStep_check_failed h he]; exact .inr (.inr ⟨fun r => by cases r <;> rfl, rfl, rfl⟩)
      | false => rw [hostStep_check_ok h he]; exact .inr (.inr ⟨fun r => by cases r <;> rfl, rfl, rfl⟩)
    | result =>
      have e : hostStep s = { s with script := rest, calls := s.calls ++ lastBlock s.reads } := by simp [hostStep, h]
      rw [e]; exact .inr (.inr ⟨fun r => by cases r <;> rfl, rfl, rfl⟩)

end Sys2Proof.Machine
end

