-- ==== Sys2Proof/Laws/Step.lean ====
section
/-! SUPPORT. What one step of the whole machine is. -/

namespace Sys2Proof.Machine

/-- The engine moves exactly when a command is pending and the turn is not the host's. -/
theorem nextAgent_engine_iff (s : State) :
    s.nextAgent = .engine ↔ s.busy = true ∧ s.turns.headD .engine = .engine := by
  unfold State.nextAgent; cases s.busy <;> simp

theorem nextAgent_of_idle {s : State} (h : s.busy = false) : s.nextAgent = .host := by simp [State.nextAgent, h]

theorem takeTurn_of_idle {s : State} (h : s.busy = false) : s.takeTurn = s := by simp [State.takeTurn, h]

theorem takeTurn_of_busy {s : State} (h : s.busy = true) : s.takeTurn = { s with turns := s.turns.tail } := by
  simp [State.takeTurn, h]

/-- Everything a step can answer. -/
theorem step_cases {s t : State} (h : step s = .next t) :
    (s.nextAgent = .engine ∧ engineStep s.takeTurn = .next t) ∨ (s.nextAgent = .host ∧ t = hostStep s.takeTurn) := by
  unfold step at h
  cases ha : s.nextAgent with
  | engine => rw [ha] at h; exact .inl ⟨rfl, h⟩
  | host => rw [ha] at h; exact .inr ⟨rfl, by simpa using h.symm⟩

/-- A step on a word stored by `withFetchWord` decodes and runs it in the state in which it was accepted. -/
theorem step_withFetchWord (s : State) (nbits w : Nat) :
    step (s.withFetchWord nbits w) = engineStep (s.accept (BitVec.ofNat 16 (w % 2 ^ nbits))) := by
  unfold step State.withFetchWord
  generalize BitVec.ofNat 16 (w % 2 ^ nbits) = c
  rw [(nextAgent_engine_iff (s.pending c)).2 ⟨by simp, by simp⟩, takeTurn_of_busy (by simp)]
  rfl

end Sys2Proof.Machine
end

