-- ==== Sys2Proof/Tests/Slice0.lean ====
section
/-! SUPPORT. The model's own tests: one step each, on values of 95_test_vectors.md (the vector is named), the words of R71
written out, and a witness for the hypotheses of every statement. -/

namespace Sys2Proof.Tests

open Sys2Proof Sys2Proof.Machine

/-! ### Small states -/

/-- The operands of a primitive. -/
def operands (m : MulZeroMode) (a b : Word) : State :=
  { State.reset with params := { mulZeroMode := m, mulinvZero := 0#16 }, opa := a, opb := b }

/-- Key KS1 and block `0000 0001 0002 0003`, both lengths declared right. -/
def ready (m : MulZeroMode) : State :=
  { State.reset with params := { mulZeroMode := m, mulinvZero := 0#16 }, blkLen := 64#16, keyLen := 128#16, x := #v[0, 1, 2, 3], k := #v[1, 2, 3, 4, 5, 6, 7, 8] }

/-- The state a step answers, if it answers one. -/
def answer : Host.Outcome State Fault Refusal → Option State
  | .next t => some t
  | .fault _ | .refused _ => none

/-- The value of a register after the step that completes the pending word. -/
def regAfter (s : State) (w : Word) (r : Reg) : Option Word := (answer (step (s.pending w))).map (·.reg r)

/-! ### Well-formed words: each check refuses an ill-formed word (30_encoding.md R75) -/

theorem test_wf_rsv : rsvOk 0x0140#16 = false ∧ wordWellFormed 0x0140#16 = false ∧
    decode 0x0140#16 = .error .reservedNotZero := by decide
theorem test_wf_unit_low : unitOk 0x0000#16 = false ∧ wordWellFormed 0x0000#16 = false ∧
    decode 0x0000#16 = .error .undefinedUnit := by decide
theorem test_wf_unit_high : unitOk 0x0050#16 = false ∧ wordWellFormed 0x0050#16 = false ∧
    decode 0x0050#16 = .error .undefinedUnit := by decide
theorem test_wf_func : funcOk 0x0042#16 = false ∧ wordWellFormed 0x0042#16 = false ∧
    decode 0x0042#16 = .error .unusedFunc := by decide
theorem test_wf_instr : Instr.wellFormed .decrypt = true := by decide

/-! ### The words of R71, bit by bit -/

theorem test_decode_xor : decode 0b0000000000010000#16 = .ok .xor := by decide
theorem test_decode_add : decode 0b0000000000010001#16 = .ok .add := by decide
theorem test_decode_mul : decode 0b0000000000010010#16 = .ok .mul := by decide
theorem test_decode_addinv : decode 0b0000000000010011#16 = .ok .addinv := by decide
theorem test_decode_mulinv : decode 0b0000000000010100#16 = .ok .mulinv := by decide
theorem test_decode_kse : decode 0b0000000000100000#16 = .ok .kse := by decide
theorem test_decode_ksd : decode 0b0000000000100001#16 = .ok .ksd := by decide
theorem test_decode_tfe : decode 0b0000000000110000#16 = .ok .tfe := by decide
theorem test_decode_tfd : decode 0b0000000000110001#16 = .ok .tfd := by decide
theorem test_decode_encrypt : decode 0b0000000001000000#16 = .ok .encrypt := by decide
theorem test_decode_decrypt : decode 0b0000000001000001#16 = .ok .decrypt := by decide

/-! ### One step of each command, on the spec's vectors -/

/-- Section 2, row `1234 F000`. -/
theorem test_xor : regAfter (operands .literal 0x1234#16 0xF000#16) 0x0010#16 .res = some 0xE234#16 := by decide +kernel
/-- Section 2, row `1234 F000`. -/
theorem test_add_wraps : regAfter (operands .literal 0x1234#16 0xF000#16) 0x0011#16 .res = some 0x0234#16 := by
  decide +kernel
/-- Section 2, row `0002 8000`: residue 65536. -/
theorem test_mul_residue_65536 : regAfter (operands .literal 0x0002#16 0x8000#16) 0x0012#16 .res = some 0x0000#16 := by
  decide +kernel
/-- Section 2, row `0000 0002`, TEXTBOOK. -/
theorem test_mul_zero_textbook : regAfter (operands .textbook 0x0000#16 0x0002#16) 0x0012#16 .res = some 0xFFFF#16 := by
  decide +kernel
/-- Section 2, row `0000`. -/
theorem test_addinv_zero : regAfter (operands .literal 0x0000#16 0x0005#16) 0x0013#16 .res = some 0x0000#16 := by
  decide +kernel
/-- Section 2, row `9D2C`: the input with the most Euclid passes. -/
theorem test_mulinv_longest : regAfter (operands .literal 0x9D2C#16 0#16) 0x0014#16 .res = some 0x61C6#16 := by
  decide +kernel
/-- Section 2, row `8000`: the coefficient is negative before the correction. -/
theorem test_mulinv_negative : regAfter (operands .literal 0x8000#16 0#16) 0x0014#16 .res = some 0xFFFF#16 := by
  decide +kernel
/-- Vector KS1: the first rotated word. -/
theorem test_kse_rotation : regAfter (ready .literal) 0x0020#16 (.ze 8) = some 0x0400#16 := by decide +kernel
/-- Vector KS1: the last word. -/
theorem test_kse_last : regAfter (ready .literal) 0x0020#16 (.ze 51) = some 0x0140#16 := by decide +kernel
/-- Vector KS7: the additive words are exchanged for `i = 1` (`ZD7 = 8000`, `ZD8 = A000`) and not for `i = 0`. -/
theorem test_ksd_exchange :
    let s := { ready .literal with ze := kse 0x00010002000300040005000600070008#128 }
    regAfter s 0x0021#16 (.zd 1) = some 0xFF40#16 ∧ regAfter s 0x0021#16 (.zd 7) = some 0x8000#16 ∧
      regAfter s 0x0021#16 (.zd 8) = some 0xA000#16 := by decide +kernel
/-- Vector TR2: the store is used as it is, 52 zeros. -/
theorem test_tfe_zero_store :
    let s := { State.reset with blkLen := 64#16, x := #v[0x1234, 0x5678, 0x9ABC, 0xDEF0] }
    regAfter s 0x0030#16 (.y 1) = some 0x9ABC#16 ∧ regAfter s 0x0030#16 (.y 2) = some 0x5678#16 := by decide +kernel
/-- Vector TR3: 65 is no block length. -/
theorem test_tfe_length : regAfter { ready .literal with blkLen := 65#16 } 0x0030#16 .status = some 0x0026#16 := by
  decide +kernel
/-- R154's example, TEXTBOOK. -/
theorem test_tfd :
    let s := { ready .textbook with x := #v[0x11FB, 0xED2B, 0x0198, 0x6DE5], zd := ksd Params.default (kse 0x00010002000300040005000600070008#128) }
    regAfter s 0x0031#16 (.y 0) = some 0#16 ∧ regAfter s 0x0031#16 (.y 3) = some 3#16 := by decide +kernel
/-- Vector F1, LITERAL. -/
theorem test_encrypt_literal : (answer (step ((ready .literal).pending 0x0040#16))).map (·.y) =
    some #v[0xD7FB#16, 0x5816#16, 0x21BC#16, 0xB3AA#16] := by decide +kernel
/-- Vector F1, TEXTBOOK (and EX1). -/
theorem test_encrypt_textbook : (answer (step ((ready .textbook).pending 0x0040#16))).map (·.y) =
    some #v[0x11FB#16, 0xED2B#16, 0x0198#16, 0x6DE5#16] := by decide +kernel
/-- Vector F1, LITERAL, the way back. -/
theorem test_decrypt_literal :
    (answer (step (({ ready .literal with x := #v[0xD7FB, 0x5816, 0x21BC, 0xB3AA] } : State).pending 0x0041#16))).map (·.y) =
    some #v[0#16, 1#16, 2#16, 3#16] := by decide +kernel
/-- Vector E6: both lengths wrong, the block is reported. -/
theorem test_decrypt_priority :
    regAfter { ready .literal with blkLen := 0x0041#16, keyLen := 0x0081#16 } 0x0041#16 .status = some 0x0026#16 := by
  decide +kernel
/-- Vector E13: an illegal word outranks the lengths. -/
theorem test_illegal : regAfter { ready .literal with blkLen := 63#16, keyLen := 127#16 } 0xFFFF#16 .status = some 0x0046#16 := by
  decide +kernel
/-- Vectors RO5 and RO6 (R109), and the failing `split` of section 2 (R111). -/
theorem test_rotl : rotl 0xB1#8 3 = 0x8D#8 ∧ rotl 0xB1#8 11 = 0x8D#8 := by decide
theorem test_split_fails : split 0#120 8 16 = .error .lengthMismatch := by decide
theorem test_xor_widths : xorBits 0#16 0#15 = .error .lengthMismatch := by decide

/-! ### The port -/

/-- PG3 lines 20 to 23: writes of STATUS and of index 17 are discarded, index 17 reads 0. -/
theorem test_discarded : memWrite State.reset 0x01#8 0xFFFF#16 = State.reset ∧
    memWrite State.reset 0x17#8 0xBEEF#16 = State.reset ∧ memRead State.reset 0x17#8 = 0#16 := by decide +kernel
/-- PG5: the write lands in one order and is discarded in the other. -/
theorem test_pending_write :
    let s := { ready .literal with cmd := 0x0040#16, status := 0x0001#16, script := [.wr 0x04#8 0xFFFF#16] }
    (answer (step { s with turns := [.host] })).map (·.x) = some #v[0#16, 1#16, 2#16, 3#16] ∧
    (answer (step { s with status := 0x0002#16 })).map (·.x) = some #v[0xFFFF#16, 1#16, 2#16, 3#16] := by decide +kernel
/-- Lines of R79 and R80 stand for the transactions of PG1. -/
theorem test_lines : lineCommand .encrypt = .wr 0x00#8 0x0040#16 ∧ lineRd (.zd 51) = .rd 0xB3#8 ∧
    macroLdblk #v[0, 1, 2, 3] = [.wr 0x04#8 0#16, .wr 0x05#8 1#16, .wr 0x06#8 2#16, .wr 0x07#8 3#16, .wr 0x02#8 0x0040#16] := by
  decide +kernel
/-- R236: the branch on `s[2]` gives the kind `s[7:4]`, and the result is the four words in the order read. -/
theorem test_call_failed : (answer (step { State.reset with script := [.check], polled := 0x0026#16 })).map (·.calls) =
    some [.failed 2#4] := by decide +kernel
theorem test_call_result : (answer (step { State.reset with script := [.result], reads := [0x11FB, 0xED2B, 0x0198, 0x6DE5] })).map
    (·.calls) = some [.result 0x11FBED2B01986DE5#64] := by decide +kernel
/-- The word a host would store is the one the next step runs. -/
theorem test_withFetchWord : (answer (step (State.reset.withFetchWord 16 0x0010))).map (·.status) = some 0x0002#16 := by
  decide +kernel

/-! ### Witnesses: what meets the hypotheses of each statement, clause by clause, at the ends of the ranges -/

theorem witness_DecodeEncodeAgree : decode (encode .decrypt) = .ok .decrypt ∧ (0x0041 : Nat) < 2 ^ 16 ∧
    decodeTableWord 16 0x0041 = some .decrypt := by decide
theorem witness_WellFormedWordsAreCommands : wordWellFormed 0x0041#16 = true ∧ decode 0x0041#16 = .ok .decrypt := by decide
theorem witness_IllegalWordsRejected :
    (0x0015#16 ≤ (0x0015#16 : Word) ∧ (0x0015#16 : Word) ≤ 0x001F#16) ∧ (0x0042#16 ≤ (0x004F#16 : Word) ∧ (0x004F#16 : Word) ≤ 0x004F#16) ∧
    (0x000F#16 : Word) < 0x0010#16 ∧ 0x0050#16 ≤ (0x0050#16 : Word) ∧
    State.reset.busy = false ∧ decode 0xFFFF#16 = .error .reservedNotZero := by decide
theorem witness_XorResult : (16 : Nat) ≠ 15 := by decide
theorem witness_MulResult : (operands .literal 0#16 2#16).params.mulZeroMode = .literal ∧
    (operands .textbook 0#16 2#16).params.mulZeroMode = .textbook := by decide
theorem witness_MulinvResult : (operands .literal 0#16 0#16).opa = 0#16 ∧ (operands .literal 1#16 0#16).opa = 1#16 ∧
    2 ≤ (operands .literal 2#16 0#16).opa.toNat ∧ 2 ≤ (operands .literal 0xFFFF#16 0#16).opa.toNat ∧
    2 * 32769 % 65537 = 1 := by decide
theorem witness_EuclidLoopBounded : (2 : Nat) ≤ 65535 ∧ (19 : Nat) ≤ 19 := by decide
theorem witness_InverseLaws : Params.default.mulinvZero = 0#16 ∧ (0xFFFF#16 : Word) ≠ 0#16 := by decide
theorem witness_TextbookMulUndone : (ready .textbook).params.mulZeroMode = .textbook ∧
    (ready .textbook).params.mulinvZero = 0#16 := by decide
theorem witness_LiteralMulUndoneExactly : Params.default.mulZeroMode = .literal ∧
    ((2#16 : Word) ≠ 0#16 ∧ (0x8000#16 : Word) ≠ 0#16 ∧ (0x8000#16 : Word).toNat * (2#16 : Word).toNat % 65537 = 65536) ∧
    mul Params.default (mul Params.default 0x8000#16 2#16) (mulinv Params.default 2#16) ≠ 0x8000#16 := by decide +kernel
theorem witness_RotationByRepetition : (0 : Nat) < 1 ∧ (127 : Nat) < 128 := by decide
theorem witness_ConversionsInverse : (65535 : Nat) < 2 ^ 16 := by decide
theorem witness_SplitChunks : (128 : Nat) = 8 * 16 ∧ (64 : Nat) = 4 * 16 ∧ (120 : Nat) ≠ 8 * 16 ∧ (15 : Nat) < 16 ∧
    ((split 0x0001000200030004#64 4 16).toOption.map List.length) = some 4 := by decide
theorem witness_KseResult : (ready .literal).keyLen = 128#16 ∧ State.reset.keyLen ≠ 128#16 ∧
    ({ ready .literal with keyLen := 129#16 } : State).keyLen ≠ 128#16 ∧ 8 * 6 + 3 < 52 ∧ (7 : Nat) < 8 ∧ 8 * 5 + 7 < 52 := by decide
theorem witness_KseClosedForm : (51 : Nat) < 52 ∧ (15 : Nat) < 16 := by decide
theorem witness_KsdResult : (0 : Nat) < 8 ∧ (7 : Nat) < 8 := by decide
theorem witness_KsdInvolution : Params.default.mulinvZero = 0#16 := by decide
/-- The ten equations of a round are met by the values they name, in a crossed round and in round 7. -/
theorem witness_TransformRounds (p : Params) (q : Quad) (z : Schedule) (r : Nat) (h : r < 8) :
    ∃ one two three four five six seven eight nine ten : Word,
      one = mul p q[0] z[6 * r] ∧ two = add q[1] z[6 * r + 1] ∧ three = add q[2] z[6 * r + 2] ∧
      four = mul p q[3] z[6 * r + 3] ∧ five = one ^^^ three ∧ six = two ^^^ four ∧ seven = mul p five z[6 * r + 4] ∧
      eight = add six seven ∧ nine = mul p eight z[6 * r + 5] ∧ ten = add seven nine :=
  ⟨_, _, _, _, _, _, _, _, _, _, rfl, rfl, rfl, rfl, rfl, rfl, rfl, rfl, rfl, rfl⟩
theorem witness_TfeResult : (ready .literal).blkLen = 64#16 ∧ ({ ready .literal with blkLen := 320#16 } : State).blkLen ≠ 64#16 ∧
    (ready .literal).params.mulZeroMode = .literal ∧ (ready .literal).ze = Vector.replicate 52 0#16 := by decide +kernel
theorem witness_TfdResult : (ready .literal).blkLen = 64#16 ∧ State.reset.blkLen ≠ 64#16 ∧
    (ready .literal).params.mulZeroMode = .literal ∧ (ready .literal).zd = Vector.replicate 52 0#16 := by decide +kernel
theorem witness_TransformUndoneTextbook : (ready .textbook).params.mulZeroMode = .textbook ∧
    (ready .textbook).params.mulinvZero = 0#16 := by decide
/-- Vector F1: no exception among the eighteen, though `ZE40` is 0. -/
theorem witness_TransformUndoneLiteral : Params.default.mulZeroMode = .literal ∧
    TransformUndone Params.default #v[0, 1, 2, 3] (kse 0x00010002000300040005000600070008#128) := by decide +kernel
theorem witness_FacadeFunctions : (63 : Nat) ≠ 64 ∧ (127 : Nat) ≠ 128 ∧
    split 0x0000000100020003#64 4 16 = .ok (#v[0#16, 1#16, 2#16, 3#16] : Quad).toList := by decide
theorem witness_EncryptResult : State.reset.blkLen ≠ 64#16 ∧
    (({ ready .literal with keyLen := 127#16 } : State).blkLen = 64#16 ∧ ({ ready .literal with keyLen := 127#16 } : State).keyLen ≠ 128#16) ∧
    (ready .literal).blkLen = 64#16 ∧ (ready .literal).keyLen = 128#16 := by decide
theorem witness_DecryptResult : ({ ready .literal with blkLen := 65#16 } : State).blkLen ≠ 64#16 ∧
    (({ ready .literal with keyLen := 129#16 } : State).blkLen = 64#16 ∧ ({ ready .literal with keyLen := 129#16 } : State).keyLen ≠ 128#16) ∧
    (ready .textbook).blkLen = 64#16 ∧ (ready .textbook).keyLen = 128#16 := by decide
theorem witness_FacadeEqualsStaged : (ready .literal).blkLen = 64#16 ∧ (ready .literal).keyLen = 128#16 := by decide
theorem witness_RoundTripTextbook : (ready .textbook).params.mulZeroMode = .textbook ∧ (ready .textbook).params.mulinvZero = 0#16 ∧
    (ready .textbook).blkLen = 64#16 ∧ (ready .textbook).keyLen = 128#16 := by decide
theorem witness_RoundTripLiteral : (ready .literal).params.mulZeroMode = .literal ∧ (ready .literal).blkLen = 64#16 ∧
    (ready .literal).keyLen = 128#16 ∧
    TransformUndone (ready .literal).params (ready .literal).x (kse (ready .literal).key) := by decide +kernel
theorem witness_FacadeIgnoresHistory :
    let s := ready .literal
    let s' := { s with res := 5#16, opa := 6#16, cmd := 7#16 }
    s ≠ s' ∧ s.params = s'.params ∧ s.x = s'.x ∧ s.k = s'.k ∧ s.blkLen = s'.blkLen ∧ s.keyLen = s'.keyLen ∧
    writes .decrypt (.zd 0) = true ∧ (answer (exec .decrypt s)).map (·.status) = some 0x0002#16 := by decide +kernel
theorem witness_FacadeRepeatable : ∃ t, exec .encrypt (ready .literal) = .next t := ⟨_, rfl⟩
theorem witness_ErrorPriority : decode State.reset.cmd = .error .undefinedUnit ∧
    takesBlock .tfe = true ∧ State.reset.blkLen ≠ 64#16 ∧
    takesKey .encrypt = true ∧ ({ ready .literal with keyLen := 127#16 } : State).blkLen = 64#16 ∧
    ({ ready .literal with keyLen := 127#16 } : State).keyLen ≠ 128#16 ∧ takesBlock .kse = false ∧
    LengthsOk .decrypt (ready .literal) ∧ LengthsOk .mul State.reset := by decide
theorem witness_NoPartialOutput : ∃ t, engineStep State.reset = .next t ∧ statusErr t.status = true :=
  ⟨_, rfl, by decide⟩
theorem witness_CompletionStatus : ∃ t, engineStep (State.reset.accept 0x0010#16) = .next t := ⟨_, rfl⟩
theorem witness_StatusStaysUntilCommand :
    let s := { State.reset with script := [.wr 0x00#8 0x0040#16] }
    let s' := { State.reset with status := 0x0046#16, script := [.reset] }
    s.busy = false ∧ (answer (step s)).map (·.status) = some 0x0001#16 ∧
    s'.busy = false ∧ (answer (step s')).map (·.status) = some 0x0000#16 := by decide +kernel
theorem witness_CommandFrame : (∃ t, exec .ksd State.reset = .next t) ∧ writes .ksd .res = false ∧ Reg.res ≠ Reg.status ∧
    Reg.access .opb = .rw := ⟨⟨_, rfl⟩, by decide, by decide, by decide⟩
theorem witness_RegisterMap : regAt 0x16#8 = some .res ∧ regAt 0x17#8 = none ∧ regAt 0x3F#8 = none ∧ regAt 0x40#8 = some (.ze 0) ∧
    regAt 0x73#8 = some (.ze 51) ∧ regAt 0x74#8 = none ∧ regAt 0x7F#8 = none ∧ regAt 0x80#8 = some (.zd 0) ∧
    regAt 0xB3#8 = some (.zd 51) ∧ regAt 0xB4#8 = none ∧ regAt 0xFF#8 = none := by decide +kernel
/-- A pending and an idle write, a length error's word and a success's, four reads, and no line left. -/
theorem witness_HostLineSteps :
    let s := { State.reset.accept 0x0040#16 with script := [.wr 0x04#8 0xFFFF#16], turns := [.host] }
    let s' := { State.reset with script := [.wr 0x00#8 (encode .decrypt)], turns := [.engine] }
    let u := { State.reset with script := [.check], polled := 0x0036#16 }
    let u' := { State.reset with script := [.check], polled := 0x0002#16 }
    let v := { State.reset with script := [.result], reads := [9#16, 1#16, 2#16, 3#16, 4#16] }
    (s.script = [.wr 0x04#8 0xFFFF#16] ∧ s.nextAgent = .host ∧ s.busy = true) ∧
    (s'.script = [.wr 0x00#8 (encode .decrypt)] ∧ s'.busy = false ∧ s'.turns.headD .engine = .engine) ∧
    (u.script = [.check] ∧ u.nextAgent = .host ∧ statusErr u.polled = true) ∧
    (u'.script = [.check] ∧ u'.nextAgent = .host ∧ statusErr u'.polled = false) ∧
    (v.script = [.result] ∧ v.nextAgent = .host ∧ v.reads = [9#16] ++ [1#16, 2#16, 3#16, 4#16]) ∧
    RunOver (ready .literal) := by decide
theorem witness_CallAnswered :
    let s := { ready .literal with script := macroIssue .encrypt ++ [] }
    let s' := { State.reset with script := macroIssue .decrypt ++ [HostLine.reset] }
    (s.busy = false ∧ s.blkLen = 64#16 ∧ s.keyLen = 128#16) ∧ (s'.busy = false ∧ s'.blkLen ≠ 64#16) ∧
    (({ s with keyLen := 127#16 } : State).busy = false ∧ ({ s with keyLen := 127#16 } : State).keyLen ≠ 128#16) := by decide
theorem witness_BoundaryCall :
    let s := { State.reset with script := macroCall .decrypt #v[1, 2, 3, 4, 5, 6, 7, 8] #v[0, 1, 2, 3] ++ [HostLine.rd 0x01#8] }
    s.busy = false ∧ s.script.length = 18 := by decide +kernel
theorem witness_HostRead : (∀ r : Reg, (0x17#8 : Index) ≠ r.index) ∧
    ({ State.reset with script := [.rd 0x10#8] } : State).nextAgent = .host := by
  refine ⟨fun r h => ?_, by decide⟩
  have := regAt_index r
  rw [← h] at this
  exact absurd this (by simp [regAt])
theorem witness_HostWrite : (State.reset.accept 0x0040#16).busy = true ∧ State.reset.busy = false ∧
    Reg.access (.x 3) = .rw ∧ Reg.x 3 ≠ .cmd ∧ Reg.access (.ze 51) = .ro ∧ regAt 0xB4#8 = none := by decide
theorem witness_PendingOperandsFixed :
    let s := { State.reset.accept 0x0040#16 with script := [.wr 0x04#8 0xFFFF#16], turns := [.host] }
    s.busy = true ∧ s.nextAgent = .host ∧ (∀ rest, s.script ≠ .reset :: rest) ∧ ∃ t, step s = .next t :=
  ⟨by decide, by decide, by simp, ⟨_, rfl⟩⟩
theorem witness_WaitPolls :
    let s := { State.reset.accept 0x0040#16 with script := [.wait], turns := [.host] }
    let s' := { State.reset with script := [.wait] }
    (s.script = [.wait] ∧ s.nextAgent = .host ∧ s.busy = true) ∧ (s'.script = [.wait] ∧ s'.nextAgent = .host ∧ s'.busy = false) := by
  decide
theorem witness_StepRunsCommand : (State.reset.pending 0x0010#16).busy = true ∧
    (State.reset.pending 0x0010#16).turns.headD .engine = .engine ∧ decode (State.reset.pending 0x0010#16).cmd = .ok .xor ∧
    (State.reset.accept 0x0041#16).turns.headD .engine = .engine := by decide
theorem witness_StepRejectsIllegal : (State.reset.pending 0x0042#16).busy = true ∧
    (State.reset.pending 0x0042#16).turns.headD .engine = .engine ∧
    decode (State.reset.pending 0x0042#16).cmd = .error .unusedFunc := by decide
theorem witness_PendingEnds : ({ State.reset.accept 0x0041#16 with turns := [.host, .host] } : State).busy = true := by decide
theorem witness_BothOrdersAllowed : (State.reset.accept 0x0041#16).busy = true := by decide
theorem witness_ResetClearsRegisters :
    let s := { State.reset.accept 0x0041#16 with script := [.reset], turns := [.host] }
    s.script = [.reset] ∧ s.nextAgent = .host ∧ s.busy = true := by decide
/-- A pending command right after reset meets the invariant, and a step leaves it. -/
theorem witness_StepKeepsInvariant : Inv (State.reset.pending 0x0010#16) ∧ ∃ t, step (State.reset.pending 0x0010#16) = .next t := by
  refine ⟨⟨.inr (.inl rfl), ⟨?_, ?_, ?_, ?_, ?_⟩, ⟨⟨0#128, by decide +kernel⟩, .inl rfl⟩, ?_⟩, ⟨_, rfl⟩⟩ <;>
    intro h <;> exact absurd h (by decide)
theorem witness_ParametersFixed : ∃ t, step (State.reset.pending 0x0041#16) = .next t := ⟨_, rfl⟩
theorem witness_StoresWrittenWhole :
    (answer (step ((ready .literal).pending 0x0020#16))).map (fun t => decide (t.ze ≠ (ready .literal).ze)) = some true ∧
    (answer (step ((ready .literal).pending 0x0041#16))).map (fun t => decide (t.zd ≠ (ready .literal).zd)) = some true := by
  decide +kernel

end Sys2Proof.Tests
end

section
/-! The family 10_state.md: the register map, the reset state, and the invariant that every step keeps. -/

namespace Sys2Proof.Machine

/-! ### The register map (10_state.md R20, 20_memory.md R57) -/

/-- The map names a register only at that register's own index: the table of R20 read row by row, all 256 indices. -/
theorem eq_index_of_mem_regAt : ∀ a : Index, ∀ r ∈ regAt a, a = r.index := by decide +kernel

theorem regAt_eq_some_iff (a : Index) (r : Reg) : regAt a = some r ↔ a = r.index :=
  ⟨eq_index_of_mem_regAt a r, fun h => h ▸ regAt_index r⟩

/-- The holes of the register map are three ranges (20_memory.md R57), again over all 256 indices. -/
theorem regAt_eq_none_iff : ∀ a : Index,
    regAt a = none ↔
      (0x17 ≤ a.toNat ∧ a.toNat ≤ 0x3F) ∨ (0x74 ≤ a.toNat ∧ a.toNat ≤ 0x7F) ∨ 0xB4 ≤ a.toNat := by
  decide +kernel

theorem access_eq_ro_iff (r : Reg) :
    r.access = .ro ↔ r = .status ∨ (∃ i, r = .y i) ∨ r = .res ∨ (∃ i, r = .ze i) ∨ (∃ i, r = .zd i) := by
  cases r <;> simp [Reg.access]

/-- The register map names as many indices as the engine has registers. -/
theorem card_named_indices :
    (Finset.univ.filter fun n : Fin 256 => (regAt (BitVec.ofFin n)).isSome).card = 127 := by
  decide +kernel

/-- Settles O42: the table row by row, then its two converses (an index names only its own register, the holes). -/
theorem registerMap : Obligations.RegisterMap := by
  refine ⟨⟨regAt_index .cmd, regAt_index .status, regAt_index .blkLen, regAt_index .keyLen, ?_⟩,
    access_eq_ro_iff, regAt_eq_some_iff, regAt_eq_none_iff, card_named_indices⟩
  exact ⟨fun i => regAt_index (.x i), fun i => regAt_index (.k i), fun i => regAt_index (.y i),
    regAt_index .opa, regAt_index .opb, regAt_index .res, fun i => regAt_index (.ze i), fun i => regAt_index (.zd i)⟩

/-! ### Right after reset (10_state.md R40, 70_reset_and_hazards.md R235) -/

/-- A command whose checks fail raises that error and does nothing else (60_exceptions.md R205). -/
theorem exec_of_check_error {i : Instr} {s : State} {e : ErrKind} (h : commandChecks i s = .error e) :
    exec i s = .next (s.raise e) := (exec_eq_guarded i s).trans (guarded_of_error h)

/-- Settles O53: the length registers are zero, so the first check of each of the three commands fails. -/
theorem resetState : Obligations.ResetState :=
  ⟨State.reset_reg, rfl, exec_of_check_error (e := .invalidBlockLength) rfl,
    exec_of_check_error (e := .invalidBlockLength) rfl, exec_of_check_error (e := .invalidKeyLength) rfl⟩

/-! ### What the invariant speaks of -/

/-- The invariant reads the parameters, `CMD` and the registers the host cannot write, so a change elsewhere keeps it. -/
theorem Inv.of_regs_eq {s t : State} (h : Inv s) (hp : t.params = s.params)
    (hr : ∀ r : Reg, r = .cmd ∨ r.access = .ro → t.reg r = s.reg r) : Inv t := by
  have hcmd : t.cmd = s.cmd := hr .cmd (.inl rfl)
  have hstatus : t.status = s.status := hr .status (.inr rfl)
  have hy : t.y = s.y := Vector.ext fun i hi => hr (.y ⟨i, hi⟩) (.inr rfl)
  have hres : t.res = s.res := hr .res (.inr rfl)
  have hze : t.ze = s.ze := Vector.ext fun i hi => hr (.ze ⟨i, hi⟩) (.inr rfl)
  have hzd : t.zd = s.zd := Vector.ext fun i hi => hr (.zd ⟨i, hi⟩) (.inr rfl)
  obtain ⟨legal, ⟨idle, ended, block, key, illegal⟩, ⟨ze, zd⟩, fresh⟩ := h
  cases s; cases t
  dsimp only at *
  subst hp hcmd hstatus hy hres hze hzd
  exact ⟨legal, ⟨idle, ended, block, key, illegal⟩, ⟨ze, zd⟩, fresh⟩

/-- Once `STATUS` is not 0x0000 the clause on the time before the first command asks nothing. -/
theorem nothingComputed_of_status_ne {s : State} (h : s.status ≠ 0x0000#16) : NothingComputed s :=
  fun h0 => absurd h0 h

/-! ### Reset -/

/-- The zeros of reset are the encryption schedule of the zero key. -/
theorem kse_zero : kse 0#128 = Vector.replicate 52 0x0000#16 := by decide +kernel

theorem inv_applyReset (s : State) : Inv s.applyReset where
  status := .inl rfl
  fits := by constructor <;> simp
  schedules := ⟨⟨0#128, kse_zero.symm⟩, .inl rfl⟩
  fresh := fun _ => ⟨rfl, rfl, rfl, rfl⟩

/-- Settles O54: the state after reset is what the reset input leaves of itself. -/
theorem resetMeetsInvariant : Obligations.ResetMeetsInvariant := inv_applyReset State.reset

/-! ### The host's moves -/

/-- An accepted command is pending: `STATUS` is 0x0001, of which the invariant asks nothing. -/
theorem Inv.accept {s : State} (h : Inv s) (v : Word) : Inv (s.accept v) where
  status := .inr (.inl rfl)
  fits := by constructor <;> simp [busyStatus]
  schedules := ⟨h.schedules.ze, h.schedules.zd⟩
  fresh := nothingComputed_of_status_ne (by simp [busyStatus])

theorem store_of_access_ro {s : State} {r : Reg} {v : Word} (h : r.access = .ro) : s.store r v = s := by
  cases r <;> simp_all [Reg.access, State.store]

theorem store_params (s : State) (r : Reg) (v : Word) : (s.store r v).params = s.params := by cases r <;> rfl

/-- Of the registers the invariant reads, a store changes only `CMD`, which accepts a command. -/
theorem Inv.store {s : State} (h : Inv s) (r : Reg) (v : Word) : Inv (s.store r v) := by
  by_cases hcmd : r = .cmd
  · subst hcmd; exact h.accept v
  cases haccess : r.access with
  | ro => rw [store_of_access_ro haccess]; exact h
  | rw =>
    refine h.of_regs_eq (store_params s r v) fun r' hr' => store_reg_of_ne ?_ hcmd
    rintro rfl
    simp [hcmd, haccess] at hr'

theorem Inv.memWrite {s : State} (h : Inv s) (a : Index) (v : Word) : Inv (memWrite s a v) := by
  obtain ⟨_, e⟩ | ⟨_, _, e⟩ | ⟨_, r, _, e⟩ := memWrite_cases s a v <;> rw [e]
  · exact h
  · exact h
  · exact h.store r v

theorem Inv.withScript {s : State} (h : Inv s) (rest : List HostLine) : Inv { s with script := rest } :=
  h.of_regs_eq rfl fun r _ => by cases r <;> rfl

theorem Inv.hostStep {s : State} (h : Inv s) : Inv (hostStep s) := by
  obtain ⟨a, v, rest, _, e⟩ | ⟨rest, _, e⟩ | ⟨hregs, hparams, _⟩ := hostStep_cases s
  · rw [e]; exact (h.withScript rest).memWrite a v
  · rw [e]; exact inv_applyReset _
  · exact h.of_regs_eq hparams fun r _ => hregs r

/-! ### The engine's moves -/

/-- The errors that can end the command of a word (60_exceptions.md R203, the table). -/
def CommandRaises (w : Word) : ErrKind → Prop
  | .lengthMismatch => False
  | .invalidBlockLength => ∃ i, decode w = .ok i ∧ takesBlock i = true
  | .invalidKeyLength => ∃ i, decode w = .ok i ∧ takesKey i = true
  | .illegalCommand => ∀ i, decode w ≠ .ok i

/-- How a completion step ends: in an error its word can raise, or with its command's results. -/
theorem engineStep_ends {s t : State} (h : engineStep s = .next t) :
    (∃ e, CommandRaises s.cmd e ∧ t = s.raise e) ∨
    (∃ i, decode s.cmd = .ok i ∧ t = (commandResult i s).finish) := by
  obtain ⟨hill, rfl⟩ | ⟨i, hi, hexec⟩ := engineStep_cases h
  · exact .inl ⟨.illegalCommand, hill, rfl⟩
  · obtain ⟨hb, _, rfl⟩ | ⟨hk, _, rfl⟩ | ⟨_, rfl⟩ := exec_cases hexec
    · exact .inl ⟨.invalidBlockLength, ⟨i, hi, hb⟩, rfl⟩
    · exact .inl ⟨.invalidKeyLength, ⟨i, hi, hk⟩, rfl⟩
    · exact .inr ⟨i, hi, rfl⟩

theorem errStatus_ne_zero (e : ErrKind) : errStatus e ≠ 0x0000#16 := by cases e <;> decide

theorem legalStatus_errStatus {w : Word} {e : ErrKind} (he : CommandRaises w e) : LegalStatus (errStatus e) := by
  cases e with
  | lengthMismatch => exact he.elim
  | _ => decide

/-- The word in `CMD` accounts for the error that `STATUS` then shows. -/
theorem statusFitsCommand_raise {s : State} {e : ErrKind} (he : CommandRaises s.cmd e) :
    StatusFitsCommand (s.raise e) := by
  obtain ⟨_, hblock, hkey, hillegal⟩ := errStatus_value
  cases e with
  | lengthMismatch => exact he.elim
  | invalidBlockLength => refine ⟨?_, ?_, fun _ => he, ?_, ?_⟩ <;> simp [hblock]
  | invalidKeyLength => refine ⟨?_, ?_, ?_, fun _ => he, ?_⟩ <;> simp [hkey]
  | illegalCommand => refine ⟨?_, ?_, ?_, ?_, fun _ => he⟩ <;> simp [hillegal]

theorem Inv.raise {s : State} (h : Inv s) {e : ErrKind} (he : CommandRaises s.cmd e) : Inv (s.raise e) where
  status := legalStatus_errStatus he
  fits := statusFitsCommand_raise he
  schedules := ⟨h.schedules.ze, h.schedules.zd⟩
  fresh := nothingComputed_of_status_ne (errStatus_ne_zero e)

@[simp] theorem commandResult_cmd (i : Instr) (s : State) : (commandResult i s).cmd = s.cmd := by cases i <;> rfl

/-- Each command leaves a schedule store alone or derives it whole: `ZE` from the key, `ZD` from an encryption schedule
(42_key_scheduler.md R138). -/
theorem SchedulesDerived.commandResult {s : State} (h : SchedulesDerived s) (i : Instr) :
    SchedulesDerived (commandResult i s) := by
  obtain ⟨ze, zd⟩ := h
  cases i with
  | kse => exact ⟨⟨s.key, rfl⟩, zd⟩
  | ksd =>
    obtain ⟨key, hkey⟩ := ze
    exact ⟨⟨key, hkey⟩, .inr ⟨key, congrArg (ksd s.params) hkey⟩⟩
  | encrypt => exact ⟨⟨s.key, rfl⟩, zd⟩
  | decrypt => exact ⟨⟨s.key, rfl⟩, .inr ⟨s.key, rfl⟩⟩
  | _ => exact ⟨ze, zd⟩

theorem Inv.commandResult_finish {s : State} (h : Inv s) {i : Instr} (hi : decode s.cmd = .ok i) :
    Inv (commandResult i s).finish where
  status := .inr (.inr (.inl rfl))
  fits := by refine ⟨?_, fun _ => ⟨i, by simpa using hi⟩, ?_, ?_, ?_⟩ <;> simp [doneStatus]
  schedules := by
    obtain ⟨ze, zd⟩ := h.schedules.commandResult i
    exact ⟨ze, zd⟩
  fresh := nothingComputed_of_status_ne (by simp [doneStatus])

theorem Inv.engineStep {s t : State} (h : Inv s) (hstep : engineStep s = .next t) : Inv t := by
  obtain ⟨e, he, rfl⟩ | ⟨i, hi, rfl⟩ := engineStep_ends hstep
  · exact h.raise he
  · exact h.commandResult_finish hi

/-! ### Every step -/

theorem Inv.takeTurn {s : State} (h : Inv s) : Inv s.takeTurn :=
  h.of_regs_eq (State.takeTurn_params s) fun r _ => State.takeTurn_reg s r

/-- Settles O55: a step uses up a turn and is then the engine's completion or one host line, and each keeps the
invariant. -/
theorem stepKeepsInvariant : Obligations.StepKeepsInvariant := by
  intro s t h hstep
  obtain ⟨_, hengine⟩ | ⟨_, rfl⟩ := step_cases hstep
  · exact h.takeTurn.engineStep hengine
  · exact h.takeTurn.hostStep

end Sys2Proof.Machine
end

section
/-! The family 20_memory.md: the host's read and write, what a pending command shields, and the step on each host line. -/

namespace Sys2Proof.Machine

/-! ### The two transactions (20_memory.md R52, R53, R57, R62) -/

theorem regAt_of_forall_ne_index {a : Index} (h : ∀ r : Reg, a ≠ r.index) : regAt a = none :=
  Option.eq_none_iff_forall_ne_some.2 fun r hr => h r ((regAt_eq_some_iff a r).1 hr)

theorem memRead_index (s : State) (r : Reg) : memRead s r.index = s.reg r := by
  unfold memRead; rw [regAt_index]

theorem memRead_of_unmapped {a : Index} (s : State) (h : regAt a = none) : memRead s a = 0x0000#16 := by
  unfold memRead; rw [h]

/-- A read depends on the registers alone. -/
theorem memRead_congr {s t : State} (h : SameRegisters s t) (a : Index) : memRead t a = memRead s a := by
  cases ha : regAt a with
  | none => rw [memRead_of_unmapped s ha, memRead_of_unmapped t ha]
  | some r =>
    obtain rfl := (regAt_eq_some_iff a r).1 ha
    rw [memRead_index, memRead_index, h]

@[simp] theorem memRead_takeTurn (s : State) (a : Index) : memRead s.takeTurn a = memRead s a :=
  memRead_congr (State.takeTurn_reg s) a

theorem memWrite_of_busy {s : State} (h : s.busy = true) (a : Index) (v : Word) : memWrite s a v = s := by
  simp [memWrite, h]

theorem memWrite_of_unmapped {a : Index} (s : State) (h : regAt a = none) (v : Word) : memWrite s a v = s := by
  simp [memWrite, h]

theorem memWrite_index_of_idle {s : State} (h : s.busy = false) (r : Reg) (v : Word) :
    memWrite s r.index v = s.store r v := by
  simp [memWrite, h, regAt_index]

/-- An idle engine accepts any word written to `CMD` (30_encoding.md R73). -/
theorem memWrite_cmd_of_idle {s : State} (h : s.busy = false) (v : Word) : memWrite s 0x00#8 v = s.accept v :=
  memWrite_index_of_idle h .cmd v

theorem memWrite_of_access_ro {r : Reg} (s : State) (h : r.access = .ro) (v : Word) : memWrite s r.index v = s := by
  cases hb : s.busy with
  | true => exact memWrite_of_busy hb r.index v
  | false => rw [memWrite_index_of_idle hb, store_of_access_ro h]

/-- Settles O44: while BUSY a write is discarded; while idle it is the store of the named register, case by case. -/
theorem hostWrite : Obligations.HostWrite := by
  intro s v
  refine ⟨fun a hbusy => memWrite_of_busy hbusy a v, fun hidle => memWrite_cmd_of_idle hidle v, ?_,
    fun r hro => memWrite_of_access_ro s hro v,
    fun a ha => memWrite_of_unmapped s (regAt_of_forall_ne_index ha) v⟩
  intro r hidle hrw hcmd
  refine ⟨?_, ?_, memWrite_rest s r.index v⟩
  · rw [memWrite_index_of_idle hidle, store_reg_self hrw hcmd]
  · intro r' hne
    rw [memWrite_index_of_idle hidle, store_reg_of_ne hne hcmd]

/-! ### Who moves (20_memory.md R61) -/

theorem step_of_engine {s : State} (h : s.nextAgent = .engine) : step s = engineStep s.takeTurn := by
  unfold step; rw [h]

theorem step_of_host {s : State} (h : s.nextAgent = .host) : step s = .next (hostStep s.takeTurn) := by
  unfold step; rw [h]

/-- With a command pending the turn put in front says who moves. -/
theorem nextAgent_turns_cons {s : State} (h : s.busy = true) (a : Agent) :
    State.nextAgent { s with turns := a :: s.turns } = a := if_pos h

/-- Using up the turn put in front gives the state back. -/
theorem takeTurn_turns_cons {s : State} (h : s.busy = true) (a : Agent) :
    State.takeTurn { s with turns := a :: s.turns } = s := if_pos h

/-- Settles O51: the turn in front chooses between the two agents and is used up. -/
theorem bothOrdersAllowed : Obligations.BothOrdersAllowed := by
  intro s hbusy
  constructor
  · rw [step_of_engine (nextAgent_turns_cons hbusy .engine), takeTurn_turns_cons hbusy]
  · rw [step_of_host (nextAgent_turns_cons hbusy .host), takeTurn_turns_cons hbusy]

@[simp] theorem reg_withScript (s : State) (rest : List HostLine) (r : Reg) :
    State.reg { s with script := rest } r = s.reg r := by cases r <;> rfl

@[simp] theorem busy_withScript (s : State) (rest : List HostLine) :
    State.busy { s with script := rest } = s.busy := rfl

/-- While a command is pending a host line other than reset leaves every register and the parameters: a write is
discarded (20_memory.md R62), and the other lines write no register. -/
theorem hostStep_keeps_registers_of_busy {s : State} (hbusy : s.busy = true)
    (hreset : ∀ rest, s.script ≠ .reset :: rest) :
    SameRegisters s (hostStep s) ∧ (hostStep s).params = s.params := by
  obtain ⟨a, v, rest, _, e⟩ | ⟨rest, hscript, _⟩ | ⟨hregs, hparams, _⟩ := hostStep_cases s
  · rw [e, memWrite_of_busy ((busy_withScript s rest).trans hbusy)]
    exact ⟨reg_withScript s rest, rfl⟩
  · exact absurd hscript (hreset rest)
  · exact ⟨hregs, hparams⟩

/-- Settles O46: the host's step is its line, after a turn that touches no register. -/
theorem pendingOperandsFixed : Obligations.PendingOperandsFixed := by
  intro s t hbusy hhost hreset hstep
  obtain rfl : hostStep s.takeTurn = t := by simpa [step_of_host hhost] using hstep
  obtain ⟨hregs, hparams⟩ :=
    hostStep_keeps_registers_of_busy (s := s.takeTurn) (by simpa using hbusy) (by simpa using hreset)
  exact ⟨fun r => (hregs r).trans (State.takeTurn_reg s r), hparams.trans (State.takeTurn_params s)⟩

/-! ### The step on each host line (30_encoding.md R79, 70_reset_and_hazards.md R236, R251) -/

section
variable {s : State} {rest : List HostLine}

theorem step_wr {a : Index} {v : Word} (h : s.script = .wr a v :: rest) (hhost : s.nextAgent = .host) :
    step s = .next (memWrite { s.takeTurn with script := rest } a v) := by
  rw [step_of_host hhost, hostStep_wr ((State.takeTurn_script s).trans h)]

theorem step_rd {a : Index} (h : s.script = .rd a :: rest) (hhost : s.nextAgent = .host) :
    step s = .next { s.takeTurn with script := rest, reads := s.reads ++ [memRead s a] } := by
  rw [step_of_host hhost, hostStep_rd ((State.takeTurn_script s).trans h), memRead_takeTurn, State.takeTurn_reads]

theorem step_check_failed (h : s.script = .check :: rest) (hhost : s.nextAgent = .host)
    (herr : statusErr s.polled = true) :
    step s = .next { s.takeTurn with script := rest, calls := s.calls ++ [.failed (statusErrCode s.polled)] } := by
  rw [step_of_host hhost, hostStep_check_failed ((State.takeTurn_script s).trans h) (by simpa using herr)]
  simp only [State.takeTurn_calls, State.takeTurn_polled]

theorem step_check_ok (h : s.script = .check :: rest) (hhost : s.nextAgent = .host)
    (herr : statusErr s.polled = false) :
    step s = .next { s.takeTurn with script := macroRdout ++ .result :: rest } := by
  rw [step_of_host hhost, hostStep_check_ok ((State.takeTurn_script s).trans h) (by simpa using herr)]

theorem step_result {old : List Word} {y0 y1 y2 y3 : Word} (h : s.script = .result :: rest)
    (hhost : s.nextAgent = .host) (hreads : s.reads = old ++ [y0, y1, y2, y3]) :
    step s = .next { s.takeTurn with
      script := rest, calls := s.calls ++ [.result (joinBlock #v[y0, y1, y2, y3])] } := by
  rw [step_of_host hhost,
    hostStep_result ((State.takeTurn_script s).trans h) ((State.takeTurn_reads s).trans hreads), State.takeTurn_calls]

theorem step_of_runOver (h : RunOver s) : step s = .next s := by
  obtain ⟨hscript, hidle⟩ := h
  rw [step_of_host (nextAgent_of_idle hidle), takeTurn_of_idle hidle, hostStep_nil hscript]

/-- The command line of an idle engine stores the word and sets BUSY, past the line. -/
theorem step_command_of_idle {v : Word} (h : s.script = .wr 0x00#8 v :: rest) (hidle : s.busy = false) :
    step s = .next (State.accept { s with script := rest } v) := by
  rw [step_wr h (nextAgent_of_idle hidle), takeTurn_of_idle hidle,
    memWrite_cmd_of_idle ((busy_withScript s rest).trans hidle)]

end

/-- Settles O43: the read of R52 and R57, and the line that records it and writes no register. -/
theorem hostRead : Obligations.HostRead := by
  refine ⟨memRead_index, fun s a ha => memRead_of_unmapped s (regAt_of_forall_ne_index ha), ?_⟩
  intro s a rest hscript hhost
  refine ⟨_, step_rd hscript hhost, rfl, fun r => ?_, State.takeTurn_params s⟩
  calc State.reg { s.takeTurn with script := rest, reads := s.reads ++ [memRead s a] } r
      = s.takeTurn.reg r := by cases r <;> rfl
    _ = s.reg r := State.takeTurn_reg s r

/-! ### The engine's step on a command's word (30_encoding.md R74) -/

/-- The decoder knows every command's word (30_encoding.md R71). -/
@[simp] theorem decode_encode (i : Instr) : decode (encode i) = .ok i := by cases i <;> decide

theorem engineStep_of_decode {s : State} {i : Instr} (h : decode s.cmd = .ok i) : engineStep s = exec i s := by
  unfold engineStep State.commandWord; rw [h]

/-- A pending command of the table runs when the engine moves, the turn used up. -/
theorem step_of_decode {s : State} {i : Instr} (hbusy : s.busy = true) (hturn : s.turns.headD .engine = .engine)
    (h : decode s.cmd = .ok i) : step s = exec i { s with turns := s.turns.tail } := by
  rw [step_of_engine ((nextAgent_engine_iff s).2 ⟨hbusy, hturn⟩), takeTurn_of_busy hbusy]
  exact engineStep_of_decode h

/-- Settles O58: each clause is the step on its line; the accepted command then runs if the engine moves. -/
theorem hostLineSteps : Obligations.HostLineSteps := by
  refine ⟨fun s a v rest => step_wr, ?_,
    fun s rest hscript hhost => ⟨step_check_failed hscript hhost, step_check_ok hscript hhost⟩,
    fun s rest old y0 y1 y2 y3 => step_result, fun s => step_of_runOver⟩
  intro s i rest hscript hidle
  refine ⟨_, step_command_of_idle hscript hidle, rfl, fun hturn => ?_⟩
  exact step_of_decode (State.accept_busy _ _) hturn (decode_encode i)

end Sys2Proof.Machine
end

section
/-! The family 30_encoding.md: the decoder against the encoder, the illegal words, a command's frame, and the step on a
pending word and on `WAIT`. -/

namespace Sys2Proof.Machine

/-! ### The decoder against the encoder (30_encoding.md R70, R71, R81) -/

/-- Each of the eleven comparisons of R81 is with the word that R70 gives the command it answers. -/
theorem eq_encode_of_decode {w : Word} {i : Instr} (h : decode w = .ok i) : w = encode i := by
  revert h
  fun_cases decode w with
  | case12 => exact nofun
  | _ => rintro ⟨⟩; assumption

theorem decode_eq_ok_iff (w : Word) (i : Instr) : decode w = .ok i ↔ w = encode i :=
  ⟨eq_encode_of_decode, fun h => h ▸ decode_encode i⟩

/-- Settles O1: the table's words are the encodings of their commands. -/
theorem tableWordsDecode : Obligations.TableWordsDecode :=
  ⟨decode_encode .xor, decode_encode .add, decode_encode .mul, decode_encode .addinv, decode_encode .mulinv,
    decode_encode .kse, decode_encode .ksd, decode_encode .tfe, decode_encode .tfd, decode_encode .encrypt,
    decode_encode .decrypt⟩

theorem decodeTableWord_eq_some_iff (n w : Nat) (i : Instr) :
    decodeTableWord n w = some i ↔ decode (BitVec.ofNat 16 (w % 2 ^ n)) = .ok i := by
  unfold decodeTableWord
  cases decode (BitVec.ofNat 16 (w % 2 ^ n)) <;> simp

/-- A number that fits in 16 bits is found exactly when it is the command's encoding. -/
theorem decodeTableWord_eq_some_iff_of_lt {w : Nat} (h : w < 2 ^ 16) (i : Instr) :
    decodeTableWord 16 w = some i ↔ w = (encode i).toNat := by
  rw [decodeTableWord_eq_some_iff, decode_eq_ok_iff, Nat.mod_eq_of_lt h, ← BitVec.toNat_inj, BitVec.toNat_ofNat,
    Nat.mod_eq_of_lt h]

/-- Settles O2: the eleven comparisons one way and the eleven encodings the other, on words and on their numbers. -/
theorem decodeEncodeAgree : Obligations.DecodeEncodeAgree :=
  ⟨decode_eq_ok_iff, fun _ i h => decodeTableWord_eq_some_iff_of_lt h i⟩

/-! ### The three fields (30_encoding.md R70, R75) -/

theorem word_eq_fields (w : Word) : w = rsvField w ++ (unitField w ++ funcField w) := by
  unfold rsvField unitField funcField
  rw [BitVec.extractLsb'_append_extractLsb'_eq_extractLsb' (by rfl),
    BitVec.extractLsb'_append_extractLsb'_eq_extractLsb' (by rfl)]
  simp

/-- Every used function of every unit is a command's: the map of R71, over the 256 pairs of the two fields. -/
theorem decode_isOk_of_func_lt : ∀ unit func : BitVec 4,
    func.toNat < funcCount unit → (decode (0x00#8 ++ (unit ++ func))).isOk = true := by decide +kernel

theorem wordWellFormed_encode (i : Instr) : wordWellFormed (encode i) = true := by cases i <;> decide

theorem exists_decode_of_wordWellFormed {w : Word} (h : wordWellFormed w = true) : ∃ i, decode w = .ok i := by
  obtain ⟨⟨hrsv, _⟩, hfunc⟩ : (rsvField w = 0x00#8 ∧ unitOk w = true) ∧
      (funcField w).toNat < funcCount (unitField w) := by
    simpa [wordWellFormed, rsvOk, funcOk] using h
  have hok := decode_isOk_of_func_lt (unitField w) (funcField w) hfunc
  rw [← hrsv, ← word_eq_fields] at hok
  cases hd : decode w with
  | ok i => exact ⟨i, rfl⟩
  | error e => simp [hd, Except.isOk, Except.toBool] at hok

/-- Settles O3: a command's word has right fields, and right fields make up the word of a row of the map. -/
theorem wellFormedWordsAreCommands : Obligations.WellFormedWordsAreCommands := by
  refine fun w => ⟨?_, exists_decode_of_wordWellFormed⟩
  rintro ⟨i, hi⟩
  rw [eq_encode_of_decode hi]
  exact wordWellFormed_encode i

/-! ### The illegal words (30_encoding.md R75) -/

/-- The eleven commands, in the order of R71. -/
def commandList : List Instr :=
  [.xor, .add, .mul, .addinv, .mulinv, .kse, .ksd, .tfe, .tfd, .encrypt, .decrypt]

theorem mem_commandList (i : Instr) : i ∈ commandList := by cases i <;> decide

/-- The numbers of the eleven words of R71. -/
def commandNumbers : Finset (Fin 65536) := (commandList.map fun i => (encode i).toFin).toFinset

theorem card_commandNumbers : commandNumbers.card = 11 := by decide +kernel

theorem decodeTableWord_eq_none_iff (n : Fin 65536) : decodeTableWord 16 n.val = none ↔ n ∉ commandNumbers := by
  have hmem : n ∈ commandNumbers ↔ ∃ i, decodeTableWord 16 n.val = some i := by
    simp only [commandNumbers, List.mem_toFinset, List.mem_map, mem_commandList, true_and,
      decodeTableWord_eq_some_iff_of_lt n.isLt, Fin.ext_iff, eq_comm (a := n.val)]
    rfl
  rw [hmem, ← Option.isSome_iff_exists, Option.not_isSome_iff_eq_none]

/-- All words but the eleven of the table are illegal. -/
theorem card_illegal_numbers :
    (Finset.univ.filter fun n : Fin 65536 => decodeTableWord 16 n.val = none).card = 65525 := by
  have hcompl : (Finset.univ.filter fun n : Fin 65536 => decodeTableWord 16 n.val = none) = commandNumbersᶜ := by
    ext n; simp [decodeTableWord_eq_none_iff]
  rw [hcompl, Finset.card_compl, card_commandNumbers, Fintype.card_fin]

/-- An illegal word in `CMD` is the first check (60_exceptions.md R203): only the error is raised. -/
theorem engineStep_of_illegal {s : State} (h : ∀ i : Instr, decode s.cmd ≠ .ok i) :
    engineStep s = .next (s.raise .illegalCommand) := by
  unfold engineStep State.commandWord
  cases hd : decode s.cmd with
  | ok i => exact absurd hd (h i)
  | error e => rfl

/-- Settles O4: no command's word lies in an unused range, and an illegal word is accepted like any other and rejected
by the completion step. -/
theorem illegalWordsRejected : Obligations.IllegalWordsRejected := by
  refine ⟨card_illegal_numbers, ?_, ?_, ?_⟩
  · intro i hi
    exact absurd (eq_encode_of_decode hi) (by cases i <;> decide)
  · intro w hunused i hi
    obtain rfl := eq_encode_of_decode hi
    revert hunused
    cases i <;> decide
  · intro s w hidle hillegal
    rw [memWrite_cmd_of_idle hidle]
    exact ⟨rfl, engineStep_of_illegal (s := s.accept w) hillegal⟩

/-! ### A command's frame (30_encoding.md R71, the column "writes") -/

section
variable {s : State} {r : Reg}

theorem reg_withStatus (h : r ≠ .status) (v : Word) : State.reg { s with status := v } r = s.reg r := by
  cases r with
  | status => exact absurd rfl h
  | _ => rfl

theorem reg_withRes (h : r ≠ .res) (v : Word) : State.reg { s with res := v } r = s.reg r := by
  cases r with
  | res => exact absurd rfl h
  | _ => rfl

theorem reg_withY (h : ∀ i, r ≠ .y i) (q : Quad) : State.reg { s with y := q } r = s.reg r := by
  cases r with
  | y i => exact absurd rfl (h i)
  | _ => rfl

theorem reg_withZe (h : ∀ i, r ≠ .ze i) (z : Schedule) : State.reg { s with ze := z } r = s.reg r := by
  cases r with
  | ze i => exact absurd rfl (h i)
  | _ => rfl

theorem reg_withZd (h : ∀ i, r ≠ .zd i) (z : Schedule) : State.reg { s with zd := z } r = s.reg r := by
  cases r with
  | zd i => exact absurd rfl (h i)
  | _ => rfl

end

/-- A command's results stand in the registers of its column. -/
theorem commandResult_reg_of_writes_false {i : Instr} {s : State} {r : Reg} (h : writes i r = false) :
    (commandResult i s).reg r = s.reg r := by
  have hne : ∀ r', writes i r' = true → r ≠ r' := by
    rintro r' htrue rfl
    simp [htrue] at h
  cases i with
  | xor | add | mul | addinv | mulinv => exact reg_withRes (hne .res rfl) _
  | kse => exact reg_withZe (fun j => hne (.ze j) rfl) _
  | ksd => exact reg_withZd (fun j => hne (.zd j) rfl) _
  | tfe | tfd => exact reg_withY (fun j => hne (.y j) rfl) _
  | encrypt =>
    exact (reg_withY (s := { s with ze := kse s.key }) (fun j => hne (.y j) rfl) _).trans
      (reg_withZe (fun j => hne (.ze j) rfl) _)
  | decrypt =>
    exact (reg_withY (s := { s with ze := kse s.key, zd := ksd s.params (kse s.key) })
      (fun j => hne (.y j) rfl) _).trans
      ((reg_withZd (s := { s with ze := kse s.key }) (fun j => hne (.zd j) rfl) _).trans
        (reg_withZe (fun j => hne (.ze j) rfl) _))

theorem commandResult_sameRest (i : Instr) (s : State) : SameRest s (commandResult i s) := by
  cases i <;> exact ⟨rfl, rfl, rfl, rfl, rfl, rfl⟩

/-- No column "writes" of R71 names a register the host can write (10_state.md R21 to R31). -/
theorem access_of_writes {i : Instr} {r : Reg} (h : writes i r = true) : r.access = .ro := by
  revert h
  fun_cases writes i r <;> simp [Reg.access]

/-- How a command ends: with `STATUS` written over the state it found, or over that state with its results. -/
theorem exec_ends {i : Instr} {s t : State} (h : exec i s = .next t) :
    (∃ e, t = s.raise e) ∨ t = (commandResult i s).finish := by
  obtain ⟨_, _, ht⟩ | ⟨_, _, ht⟩ | ⟨_, ht⟩ := exec_cases h
  · exact .inl ⟨_, ht⟩
  · exact .inl ⟨_, ht⟩
  · exact .inr ht

theorem exec_sameRest {i : Instr} {s t : State} (h : exec i s = .next t) : SameRest s t := by
  obtain ⟨e, rfl⟩ | rfl := exec_ends h
  · exact ⟨rfl, rfl, rfl, rfl, rfl, rfl⟩
  · exact commandResult_sameRest i s

theorem exec_reg_of_writes_false {i : Instr} {s t : State} {r : Reg} (h : exec i s = .next t)
    (hwrites : writes i r = false) (hstatus : r ≠ .status) : t.reg r = s.reg r := by
  obtain ⟨e, rfl⟩ | rfl := exec_ends h
  · exact reg_withStatus hstatus _
  · exact (reg_withStatus hstatus _).trans (commandResult_reg_of_writes_false hwrites)

/-- Settles O41: the frame from how a command can end, and no host-writable register is in a column "writes". -/
theorem commandFrame : Obligations.CommandFrame := by
  intro i s t h
  refine ⟨exec_sameRest h, fun r => exec_reg_of_writes_false h, fun r hrw => exec_reg_of_writes_false h ?_ ?_⟩
  · by_contra hwrites
    have hro := access_of_writes (Bool.eq_true_of_not_eq_false hwrites)
    simp [hrw] at hro
  · rintro rfl
    simp [Reg.access] at hrw

/-! ### The step on a pending word and on `WAIT` (30_encoding.md R74, R80) -/

/-- Settles O47: the engine's step on a word of the table. -/
theorem stepRunsCommand : Obligations.StepRunsCommand := fun _ _ => step_of_decode

/-- Settles O48: the turn is used up and the word in `CMD` raises its error. -/
theorem stepRejectsIllegal : Obligations.StepRejectsIllegal := by
  intro s hbusy hturn hillegal
  rw [step_of_engine ((nextAgent_engine_iff s).2 ⟨hbusy, hturn⟩), takeTurn_of_busy hbusy]
  exact engineStep_of_illegal hillegal

/-- `WAIT` keeps the word it reads and stays while that word has BUSY set. -/
theorem step_wait {s : State} {rest : List HostLine} (h : s.script = .wait :: rest) (hhost : s.nextAgent = .host) :
    step s = .next { s.takeTurn with
      polled := s.status, script := if s.busy then .wait :: rest else rest } := by
  rw [step_of_host hhost, hostStep_wait ((State.takeTurn_script s).trans h)]
  simp only [State.takeTurn_status, State.takeTurn_busy]

/-- Settles O45: the registers are those of the state whose turn was used up, and BUSY decides about the line. -/
theorem waitPolls : Obligations.WaitPolls := by
  intro s rest hscript hhost
  refine ⟨_, step_wait hscript hhost, fun r => ?_, State.takeTurn_params s, State.takeTurn_reads s, rfl,
    State.takeTurn_calls s, fun hbusy => if_pos hbusy, fun hidle => if_neg (by simp [hidle])⟩
  calc State.reg { s.takeTurn with polled := s.status, script := if s.busy then .wait :: rest else rest } r
      = s.takeTurn.reg r := by cases r <;> rfl
    _ = s.reg r := State.takeTurn_reg s r

end Sys2Proof.Machine
end

section
/-! The family 41_primitives.md: the five primitive commands, the Euclid loop, multiplication modulo 65537 and its inverse,
and the functions without a command. -/

namespace Sys2Proof.Machine

/-! ### The primitive commands (41_primitives.md R100 to R104) -/

/-- A command whose checks pass writes its results and finishes. -/
theorem exec_of_check_ok {i : Instr} {s : State} (h : commandChecks i s = .ok ()) :
    exec i s = .next (commandResult i s).finish := (exec_eq_guarded i s).trans (guarded_of_ok h)

theorem toNat_add (a b : Word) : (add a b).toNat = (a.toNat + b.toNat) % 65536 := by
  simp [add]

theorem toNat_addinv (a : Word) : (addinv a).toNat = (65536 - a.toNat) % 65536 := by
  simp [addinv]

theorem toNat_mul (p : Params) (a b : Word) :
    (mul p a b).toNat = mulOperand p.mulZeroMode a * mulOperand p.mulZeroMode b % 65537 % 65536 := by
  simp [mul, mulResidue]

theorem xorBits_self_width {n : Nat} (a b : BitVec n) : xorBits a b = .ok (a ^^^ b) := by simp [xorBits]

theorem xorBits_of_ne {wa wb : Nat} (a : BitVec wa) (b : BitVec wb) (h : wa ≠ wb) :
    xorBits a b = .error .lengthMismatch := dif_neg h.symm

/-- Settles O5: two widths are compared, and the xor of equal widths is the xor of the bits. -/
theorem xorResult : Obligations.XorResult := by
  refine ⟨rfl, fun n a b => ⟨_, xorBits_self_width a b, fun i => BitVec.getLsbD_xor⟩, fun wa wb => xorBits_of_ne,
    fun s => ?_⟩
  exact ⟨xor16 s.opa s.opb, exec_of_check_ok (i := .xor) rfl, fun i => BitVec.getLsbD_xor⟩

/-- Settles O6: the command has no check, and its result is the function's. -/
theorem addResult : Obligations.AddResult :=
  ⟨rfl, fun s => ⟨_, exec_of_check_ok (i := .add) rfl, toNat_add s.opa s.opb⟩⟩

/-- Settles O7: the two modes differ in what an operand stands for only. -/
theorem mulResult : Obligations.MulResult := by
  refine ⟨rfl, fun s => ⟨mul s.params s.opa s.opb, exec_of_check_ok (i := .mul) rfl, fun hm => ?_, fun hm => ?_⟩⟩
  · rw [toNat_mul, hm]; rfl
  · rw [toNat_mul, hm]; rfl

/-- Settles O8: the command has no check, and its result reads `OPA` alone. -/
theorem addinvResult : Obligations.AddinvResult :=
  ⟨rfl, fun s => ⟨_, exec_of_check_ok (i := .addinv) rfl, toNat_addinv s.opa⟩⟩

/-! ### The passes of the Euclid loop (41_primitives.md R108) -/

/-- One pass of the loop: `r0 - q * r1` is the remainder. -/
theorem euclidLoop_succ {fuel r0 r1 : Nat} {t0 t1 : Int} (h : r1 ≠ 0) :
    euclidLoop (fuel + 1) r0 r1 t0 t1 = euclidLoop fuel r1 (r0 % r1) t1 (t0 - (r0 / r1 : Nat) * t1) := by
  rw [euclidLoop, if_neg h, Nat.mod_eq_sub_div_mul]

@[simp] theorem euclidLoop_zero_right (fuel r0 : Nat) (t0 t1 : Int) : euclidLoop fuel r0 0 t0 t1 = t0 := by
  cases fuel <;> simp [euclidLoop]

/-- The remainders the loop runs through from `r0` and `r1`. -/
def euclidRem (r0 r1 : Nat) : Nat → Nat
  | 0 => r0
  | n + 1 => euclidRem r1 (r0 % r1) n

theorem euclidRem_add_two (r0 r1 n : Nat) :
    euclidRem r0 r1 (n + 2) = euclidRem r0 r1 n % euclidRem r0 r1 (n + 1) := by
  induction n generalizing r0 r1 with
  | zero => rfl
  | succ n ih => exact ih r1 (r0 % r1)

/-- Once a remainder is 0 more fuel changes nothing. -/
theorem euclidLoop_of_euclidRem_eq_zero {n fuel r0 r1 : Nat} {t0 t1 : Int} (hfuel : n ≤ fuel)
    (hzero : ∃ k ≤ n, euclidRem r0 r1 (k + 1) = 0) :
    euclidLoop fuel r0 r1 t0 t1 = euclidLoop n r0 r1 t0 t1 := by
  induction n generalizing fuel r0 r1 t0 t1 with
  | zero =>
    obtain ⟨k, hk, hzero⟩ := hzero
    obtain rfl : k = 0 := by omega
    obtain rfl : r1 = 0 := hzero
    rw [euclidLoop_zero_right, euclidLoop_zero_right]
  | succ n ih =>
    by_cases hr : r1 = 0
    · rw [hr, euclidLoop_zero_right, euclidLoop_zero_right]
    obtain ⟨fuel, rfl⟩ := Nat.exists_eq_add_of_lt hfuel
    obtain ⟨k, hk, hzero⟩ := hzero
    cases k with
    | zero => exact absurd hzero hr
    | succ k =>
      rw [euclidLoop_succ hr, euclidLoop_succ hr]
      exact ih (by omega) ⟨k, by omega, hzero⟩

theorem euclidRem_succ_lt {r0 r1 : Nat} (h : r1 < r0) {n : Nat} (hn : euclidRem r0 r1 n ≠ 0) :
    euclidRem r0 r1 (n + 1) < euclidRem r0 r1 n := by
  cases n with
  | zero => exact h
  | succ n => rw [euclidRem_add_two]; exact Nat.mod_lt _ (Nat.pos_of_ne_zero hn)

/-- Each pass takes the divisor away `q + 1` times. -/
theorem exists_euclidRem_eq {r0 r1 : Nat} (h : r1 < r0) {n : Nat} (hn : euclidRem r0 r1 n ≠ 0)
    (hn1 : euclidRem r0 r1 (n + 1) ≠ 0) :
    ∃ q, euclidRem r0 r1 n = q * euclidRem r0 r1 (n + 1) + euclidRem r0 r1 (n + 1) + euclidRem r0 r1 (n + 2) := by
  have hdiv : 1 ≤ euclidRem r0 r1 n / euclidRem r0 r1 (n + 1) :=
    Nat.div_pos (euclidRem_succ_lt h hn).le (Nat.pos_of_ne_zero hn1)
  refine ⟨euclidRem r0 r1 n / euclidRem r0 r1 (n + 1) - 1, ?_⟩
  rw [euclidRem_add_two, ← Nat.succ_mul, Nat.succ_eq_add_one, Nat.sub_add_cancel hdiv, Nat.div_add_mod']

/-- Lamé's bound: `n` passes behind a pair of remainders take the Fibonacci numbers' part of `r0`. -/
theorem fib_mul_euclidRem_le {r0 r1 n : Nat} (h : r1 < r0) (hne : ∀ k ≤ n, euclidRem r0 r1 k ≠ 0) :
    Nat.fib (n + 1) * euclidRem r0 r1 n + Nat.fib n * euclidRem r0 r1 (n + 1) ≤ r0 := by
  induction n with
  | zero => simp [euclidRem]
  | succ n ih =>
    have hle := ih fun k hk => hne k (by omega)
    obtain ⟨q, hq⟩ := exists_euclidRem_eq h (hne n (by omega)) (hne (n + 1) le_rfl)
    rw [hq] at hle
    refine le_trans ?_ hle
    rw [Nat.fib_add_two]
    have := Nat.zero_le (Nat.fib (n + 1) * (q * euclidRem r0 r1 (n + 1)))
    linarith

/-- Checks that no `n` passes lead from 65537 to the remainders `x` and `y`: it goes the passes backwards, over every
quotient after which the passes before it can still fit in 65537. -/
def unreachable : Nat → Nat → Nat → Bool
  | 0, x, _ => x != mMul
  | n + 1, x, y =>
    (List.range ((mMul - (Nat.fib n * x + Nat.fib (n + 1) * y)) / (Nat.fib (n + 1) * x))).all fun q =>
      unreachable n (q * x + x + y) x

/-- The check fails on remainders that the loop does reach. -/
theorem unreachable_euclidRem {a n : Nat} (h : a < mMul) (hne : ∀ k ≤ n, euclidRem mMul a k ≠ 0) :
    unreachable n (euclidRem mMul a n) (euclidRem mMul a (n + 1)) = false := by
  induction n with
  | zero => simp [unreachable, euclidRem]
  | succ n ih =>
    have hn : ∀ k ≤ n, euclidRem mMul a k ≠ 0 := fun k hk => hne k (by omega)
    have hunreachable := ih hn
    have hle := fib_mul_euclidRem_le h hn
    obtain ⟨q, hq⟩ := exists_euclidRem_eq h (hn n le_rfl) (hne (n + 1) le_rfl)
    have hpos := Nat.mul_pos (Nat.fib_pos.2 n.succ_pos) (Nat.pos_of_ne_zero (hne (n + 1) le_rfl))
    rw [hq] at hunreachable hle
    refine List.all_eq_false.2 ⟨q, List.mem_range.2 ?_, by simp [hunreachable]⟩
    exact (Nat.le_div_iff_mul_le hpos).2 (Nat.le_sub_of_add_le (by linarith))

/-- The search of all that 19 passes behind two remainders could be; Lamé's bound leaves remainders below 10. -/
theorem unreachable_nineteen : ∀ x < 10, ∀ y < x, y ≠ 0 → unreachable 19 x y = true := by decide +kernel

/-- 65537 is no number on which the loop comes near Lamé's bound of 22 passes: a remainder up to the twentieth is 0. -/
theorem exists_euclidRem_eq_zero {a : Nat} (h : a < mMul) : ∃ k ≤ 19, euclidRem mMul a (k + 1) = 0 := by
  by_contra hnone
  push Not at hnone
  have hne : ∀ k ≤ 20, euclidRem mMul a k ≠ 0 := fun k hk => by
    cases k with
    | zero => simp [euclidRem]
    | succ k => exact hnone k (by omega)
  have hle : 6765 * euclidRem mMul a 19 + 4181 * euclidRem mMul a 20 ≤ 65537 :=
    fib_mul_euclidRem_le (n := 19) h fun k hk => hne k (by omega)
  have htrue := unreachable_nineteen _ (by omega) _ (euclidRem_succ_lt h (hne 19 (by omega))) (hne 20 le_rfl)
  rw [unreachable_euclidRem h fun k hk => hne k (by omega)] at htrue
  exact Bool.false_ne_true htrue

/-- Settles O10: a remainder is 0 after at most 19 passes; on 40236 the nineteenth pass still changes the coefficient. -/
theorem euclidLoopBounded : Obligations.EuclidLoopBounded := by
  refine ⟨fun a fuel _ hle hfuel => ?_, by decide⟩
  exact euclidLoop_of_euclidRem_eq_zero hfuel (exists_euclidRem_eq_zero (show a < 65537 by omega))

/-! ### What the Euclid loop computes (41_primitives.md R108) -/

theorem prime_mMul : Nat.Prime mMul := by norm_num [mMul]

/-- What every pass of the loop on `a` keeps: the remainders fall, each is `a` times its coefficient modulo 65537, and
the coefficients stay small. -/
structure EuclidInv (a r0 r1 : Nat) (t0 t1 : Int) : Prop where
  lt : r1 < r0
  fst : (a : ZMod mMul) * t0 = r0
  snd : (a : ZMod mMul) * t1 = r1
  bound : |t0| * r1 + |t1| * r0 ≤ mMul
  half : 2 * |t0| ≤ mMul

theorem euclidInv_start {a : Nat} (h : a < mMul) : EuclidInv a mMul a 0 1 where
  lt := h
  fst := by rw [ZMod.natCast_self]; simp
  snd := by simp
  bound := by simp
  half := by simp

theorem EuclidInv.pass {a r0 r1 : Nat} {t0 t1 : Int} (h : EuclidInv a r0 r1 t0 t1) (hr : r1 ≠ 0) :
    EuclidInv a r1 (r0 % r1) t1 (t0 - (r0 / r1 : Nat) * t1) := by
  obtain ⟨hlt, hfst, hsnd, hbound, -⟩ := h
  have hdiv : r1 * (r0 / r1) + r0 % r1 = r0 := Nat.div_add_mod r0 r1
  generalize r0 / r1 = q at hdiv ⊢
  have hmod : r0 % r1 < r1 := Nat.mod_lt r0 (by omega)
  generalize r0 % r1 = r2 at hdiv hmod ⊢
  refine ⟨hmod, hsnd, ?_, ?_, ?_⟩
  · have hcast : (r1 : ZMod mMul) * q + r2 = r0 := by rw [← hdiv]; push_cast; rfl
    push_cast
    linear_combination hfst - q * hsnd - hcast
  · have htri : |t0 - q * t1| ≤ |t0| + q * |t1| := by
      simpa [abs_mul] using abs_sub t0 (q * t1)
    calc |t1| * r2 + |t0 - q * t1| * r1
        ≤ |t1| * r2 + (|t0| + q * |t1|) * r1 := by gcongr
      _ = |t0| * r1 + |t1| * r0 := by rw [← hdiv]; push_cast; ring
      _ ≤ mMul := hbound
  · have htwo : (2 : Int) ≤ r0 := by omega
    calc 2 * |t1| ≤ r0 * |t1| := by gcongr
      _ ≤ |t0| * r1 + |t1| * r0 := by rw [mul_comm (r0 : Int)]; exact le_add_of_nonneg_left (by positivity)
      _ ≤ mMul := hbound

/-- With fuel above `r1` the loop ends on the gcd's coefficient, of at most half the modulus. -/
theorem EuclidInv.loop_spec {a fuel r0 r1 : Nat} {t0 t1 : Int} (h : EuclidInv a r0 r1 t0 t1) (hfuel : r1 < fuel) :
    (a : ZMod mMul) * (euclidLoop fuel r0 r1 t0 t1 : Int) = (r0.gcd r1 : Nat) ∧
      2 * |euclidLoop fuel r0 r1 t0 t1| ≤ mMul := by
  induction fuel generalizing r0 r1 t0 t1 with
  | zero => omega
  | succ fuel ih =>
    by_cases hr : r1 = 0
    · subst hr
      simpa using ⟨h.fst, h.half⟩
    · rw [euclidLoop_succ hr, Nat.gcd_comm, Nat.gcd_rec]
      have hmod : r0 % r1 < r1 := Nat.mod_lt r0 (by omega)
      simpa [Nat.gcd_comm] using ih (h.pass hr) (by omega)

/-! ### `mul` and `mulinv` as arithmetic modulo 65537 (41_primitives.md R103, R105) -/

/-- The residue a word stands for as an operand of `mul` (R103). -/
def residue (m : MulZeroMode) (a : Word) : ZMod mMul := (mulOperand m a : Nat)

/-- The word a residue is delivered as: 65536 as 0x0000 (R103). -/
def deliver (r : ZMod mMul) : Word := BitVec.ofNat 16 r.val

theorem mulOperand_of_ne_zero {a : Word} (m : MulZeroMode) (h : a ≠ 0#16) : mulOperand m a = a.toNat := by
  cases m <;> simp [mulOperand, h]

theorem residue_of_ne_zero {a : Word} (m : MulZeroMode) (h : a ≠ 0#16) : residue m a = (a.toNat : Nat) := by
  rw [residue, mulOperand_of_ne_zero m h]

theorem residue_val (m : MulZeroMode) (a : Word) : (residue m a).val = mulOperand m a := by
  refine ZMod.val_cast_of_lt ?_
  have := a.isLt
  cases m <;> simp only [mulOperand, mMul] <;> [skip; split] <;> omega

theorem mul_eq_deliver (p : Params) (a b : Word) :
    mul p a b = deliver (residue p.mulZeroMode a * residue p.mulZeroMode b) := by
  unfold mul mulResidue deliver
  rw [ZMod.val_mul, residue_val, residue_val]
  exact BitVec.eq_of_toNat_eq (by simp)

@[simp] theorem deliver_residue (m : MulZeroMode) (a : Word) : deliver (residue m a) = a := by
  unfold deliver
  rw [residue_val]
  by_cases h : a = 0#16
  · subst h; cases m <;> rfl
  · simp [mulOperand_of_ne_zero m h]

theorem val_neg_one_mMul : (-1 : ZMod mMul).val = 65536 := ZMod.val_neg_one 65536

/-- Every residue but 65536 fits a word. -/
theorem toNat_deliver {r : ZMod mMul} (h : r ≠ -1) : (deliver r).toNat = r.val := by
  have hlt : r.val < 65537 := r.val_lt
  have hne : r.val ≠ 65536 := fun hval => h (ZMod.val_injective mMul (hval.trans val_neg_one_mMul.symm))
  simp only [deliver, BitVec.toNat_ofNat]
  omega

@[simp] theorem deliver_zero : deliver 0 = 0#16 := rfl

@[simp] theorem deliver_one : deliver 1 = 1#16 := by decide

@[simp] theorem deliver_neg_one : deliver (-1) = 0#16 := by rw [deliver, val_neg_one_mMul]; rfl

theorem residue_ne_zero {a : Word} (m : MulZeroMode) (h : a ≠ 0#16) : residue m a ≠ 0 := by
  intro h0
  rw [← deliver_residue m a, h0] at h
  exact h deliver_zero

theorem residue_ne_neg_one {a : Word} (m : MulZeroMode) (h : a ≠ 0#16) : residue m a ≠ -1 := by
  intro h1
  rw [← deliver_residue m a, h1] at h
  exact h deliver_neg_one

@[simp] theorem residue_literal_zero : residue .literal 0#16 = 0 := rfl

/-- In `TEXTBOOK` mode the word 0 stands for 65536, which is -1 modulo 65537. -/
@[simp] theorem residue_textbook_zero : residue .textbook 0#16 = -1 :=
  ZMod.val_injective mMul ((residue_val .textbook 0#16).trans val_neg_one_mMul.symm)

theorem residue_textbook_ne_zero (a : Word) : residue .textbook a ≠ 0 := by
  by_cases h : a = 0#16
  · subst h; rw [residue_textbook_zero]; decide
  · exact residue_ne_zero .textbook h

theorem residue_deliver {m : MulZeroMode} {r : ZMod mMul} (h0 : r ≠ 0) (h1 : r ≠ -1) : residue m (deliver r) = r := by
  have hne : deliver r ≠ 0#16 := fun h =>
    h0 ((ZMod.val_eq_zero r).1 (by rw [← toNat_deliver h1, h]; rfl))
  rw [residue_of_ne_zero m hne, toNat_deliver h1, ZMod.natCast_zmod_val]

/-- `LITERAL` mode loses the residue 65536 only. -/
theorem residue_literal_deliver {r : ZMod mMul} (h : r ≠ -1) : residue .literal (deliver r) = r := by
  by_cases h0 : r = 0
  · subst h0; rfl
  · exact residue_deliver h0 h

/-- `TEXTBOOK` mode loses the residue 0 only, which no product is. -/
theorem residue_textbook_deliver {r : ZMod mMul} (h : r ≠ 0) : residue .textbook (deliver r) = r := by
  by_cases h1 : r = -1
  · subst h1; rw [deliver_neg_one, residue_textbook_zero]
  · exact residue_deliver h h1

section
/-! The modulus is prime (`prime_mMul`), so its residues are a field. -/

variable [Fact (Nat.Prime mMul)]

/-- The corrected coefficient is the inverse residue: both lie in 0 to 65536. -/
theorem euclidInverse_eq_val {a : Nat} (hpos : 0 < a) (hlt : a < mMul) :
    euclidInverse a = ((a : ZMod mMul)⁻¹).val := by
  obtain ⟨hmul, hhalf⟩ := (euclidInv_start hlt).loop_spec (Nat.lt_succ_self a)
  have hgcd : mMul.gcd a = 1 := prime_mMul.coprime_iff_not_dvd.2 (Nat.not_dvd_of_pos_of_lt hpos hlt)
  rw [hgcd, Nat.cast_one] at hmul
  unfold euclidInverse
  generalize euclidLoop (a + 1) mMul a 0 1 = t at hmul hhalf
  have hval : (((a : ZMod mMul)⁻¹).val : Int) = t % mMul := by
    rw [← eq_inv_of_mul_eq_one_right hmul, ZMod.val_intCast]
  obtain ⟨hlow, hhigh⟩ := abs_le.1 (show |t| ≤ 32768 by simp only [mMul] at hhalf; omega)
  simp only [mMul] at hval ⊢
  split <;> omega

/-- `mulinv` delivers the inverse residue, in either mode. -/
theorem mulinv_eq_deliver {a : Word} (p : Params) (m : MulZeroMode) (h : a ≠ 0#16) :
    mulinv p a = deliver (residue m a)⁻¹ := by
  unfold mulinv
  rw [if_neg h]
  by_cases h1 : a = 1#16
  · subst h1
    rw [if_pos rfl, residue_of_ne_zero m (by decide)]
    simp
  · have hpos : 0 < a.toNat := Nat.pos_of_ne_zero fun h0 => h (BitVec.eq_of_toNat_eq h0)
    rw [if_neg h1, euclidInverse_eq_val hpos (a.isLt.trans (by decide)), residue_of_ne_zero m h]
    rfl

theorem residue_mulinv {a : Word} (p : Params) (m : MulZeroMode) (h : a ≠ 0#16) :
    residue m (mulinv p a) = (residue m a)⁻¹ := by
  have h1 : (residue m a)⁻¹ ≠ -1 := by
    rw [Ne, inv_eq_iff_eq_inv, inv_neg_one]
    exact residue_ne_neg_one m h
  rw [mulinv_eq_deliver p m h, residue_deliver (inv_ne_zero (residue_ne_zero m h)) h1]

/-- With `MULINV_ZERO` = 0 the word 0 is no exception in `TEXTBOOK` mode: 65536 is its own inverse (R105). -/
theorem residue_textbook_mulinv {p : Params} (hp : p.mulinvZero = 0#16) (a : Word) :
    residue .textbook (mulinv p a) = (residue .textbook a)⁻¹ := by
  by_cases h : a = 0#16
  · subst h; simp [mulinv, hp]
  · exact residue_mulinv p .textbook h

theorem mulinv_mulinv {p : Params} (hp : p.mulinvZero = 0#16) (a : Word) : mulinv p (mulinv p a) = a := by
  rw [← deliver_residue .textbook (mulinv p (mulinv p a)), residue_textbook_mulinv hp, residue_textbook_mulinv hp,
    inv_inv, deliver_residue]

theorem mul_mulinv_self {a : Word} (p : Params) (h : a ≠ 0#16) : mul p a (mulinv p a) = 1#16 := by
  rw [mul_eq_deliver, residue_mulinv p _ h, mul_inv_cancel₀ (residue_ne_zero _ h), deliver_one]

/-- Where neither the product nor the inverse loses its residue on the way out, multiplication is undone. -/
theorem mul_mul_mulinv {p : Params} {x z : Word} (hz : residue p.mulZeroMode z ≠ 0)
    (hmul : residue p.mulZeroMode (mul p x z) = residue p.mulZeroMode x * residue p.mulZeroMode z)
    (hinv : residue p.mulZeroMode (mulinv p z) = (residue p.mulZeroMode z)⁻¹) :
    mul p (mul p x z) (mulinv p z) = x := by
  rw [mul_eq_deliver, hmul, hinv, mul_inv_cancel_right₀ hz, deliver_residue]

theorem mul_mul_mulinv_textbook {p : Params} (hm : p.mulZeroMode = .textbook) (hp : p.mulinvZero = 0#16) (x z : Word) :
    mul p (mul p x z) (mulinv p z) = x := by
  have hx := residue_textbook_ne_zero x
  have hz := residue_textbook_ne_zero z
  apply mul_mul_mulinv <;> rw [hm]
  · exact hz
  · rw [mul_eq_deliver, hm, residue_textbook_deliver (mul_ne_zero hx hz)]
  · exact residue_textbook_mulinv hp z

theorem mul_mul_mulinv_literal {p : Params} {x z : Word} (hm : p.mulZeroMode = .literal) (hz : z ≠ 0#16)
    (hres : residue .literal x * residue .literal z ≠ -1) : mul p (mul p x z) (mulinv p z) = x := by
  apply mul_mul_mulinv <;> rw [hm]
  · exact residue_ne_zero .literal hz
  · rw [mul_eq_deliver, hm, residue_literal_deliver hres]
  · exact residue_mulinv p .literal hz

theorem toNat_mul_mod_eq_one_iff {a : Word} (h : a ≠ 0#16) (n : Nat) :
    a.toNat * n % 65537 = 1 ↔ (n : ZMod mMul) = (residue .literal a)⁻¹ := by
  have hcast := ZMod.natCast_eq_natCast_iff' (a.toNat * n) 1 mMul
  rw [Nat.cast_mul, Nat.cast_one, ← residue_of_ne_zero .literal h, mul_comm,
    mul_eq_one_iff_eq_inv₀ (residue_ne_zero .literal h)] at hcast
  exact hcast.symm

/-- The inverse as numbers: it lies in 2 to 65535, the product is 1 modulo 65537, and no other number there does this. -/
theorem mulinv_toNat_spec {a : Word} (p : Params) (h : 2 ≤ a.toNat) :
    2 ≤ (mulinv p a).toNat ∧ a.toNat * (mulinv p a).toNat % 65537 = 1 ∧
      ∀ x : Nat, 2 ≤ x → x ≤ 65535 → a.toNat * x % 65537 = 1 → x = (mulinv p a).toNat := by
  have hne : a ≠ 0#16 := by rintro rfl; simp at h
  have hinv : ((mulinv p a).toNat : ZMod mMul) = (residue .literal a)⁻¹ := residue_mulinv p .literal hne
  have hlt := (mulinv p a).isLt
  have hmul := (toNat_mul_mod_eq_one_iff hne _).2 hinv
  refine ⟨?_, hmul, fun x _ hx hmulx => ?_⟩
  · by_contra hsmall
    obtain h0 | h1 : (mulinv p a).toNat = 0 ∨ (mulinv p a).toNat = 1 := by omega
    · simp [h0] at hmul
    · rw [h1] at hmul; omega
  · have hmod := (ZMod.natCast_eq_natCast_iff' _ _ mMul).1
      (((toNat_mul_mod_eq_one_iff hne x).1 hmulx).trans hinv.symm)
    rwa [Nat.mod_eq_of_lt (show x < 65537 by omega), Nat.mod_eq_of_lt (hlt.trans (by decide))] at hmod

end

/-! ### The laws of the inverses (41_primitives.md R105, R113) -/

/-- Settles O9: the Euclid loop delivers the inverse modulo the prime 65537. -/
theorem mulinvResult : Obligations.MulinvResult := by
  have : Fact (Nat.Prime mMul) := ⟨prime_mMul⟩
  refine ⟨rfl, fun s => ⟨mulinv s.params s.opa, exec_of_check_ok (i := .mulinv) rfl, ?_, ?_,
    mulinv_toNat_spec s.params⟩⟩
  · intro h; rw [h]; rfl
  · intro h; rw [h]; rfl

theorem addinv_addinv (a : Word) : addinv (addinv a) = a := by
  refine BitVec.eq_of_toNat_eq ?_
  have := a.isLt
  rw [toNat_addinv, toNat_addinv]
  omega

theorem add_add_addinv (x z : Word) : add (add x z) (addinv z) = x := by
  refine BitVec.eq_of_toNat_eq ?_
  have := x.isLt
  have := z.isLt
  rw [toNat_add, toNat_add, toNat_addinv]
  omega

theorem add_addinv_self (a : Word) : add a (addinv a) = 0#16 := by
  refine BitVec.eq_of_toNat_eq ?_
  have := a.isLt
  rw [toNat_add, toNat_addinv]
  exact Nat.mod_eq_zero_of_dvd (by omega)

theorem xor16_xor16 (a b : Word) : xor16 (xor16 a b) b = a := by
  simp [xor16]

/-- Settles O11: the additive laws on numbers, the multiplicative ones on residues modulo the prime 65537. -/
theorem inverseLaws : Obligations.InverseLaws := by
  have : Fact (Nat.Prime mMul) := ⟨prime_mMul⟩
  exact ⟨fun a => ⟨addinv_addinv a, add_addinv_self a⟩, add_add_addinv, fun p a hp => mulinv_mulinv hp a,
    fun p a => mul_mulinv_self p, xor16_xor16⟩

/-- Settles O12: in TEXTBOOK mode no product and no inverse loses its residue. -/
theorem textbookMulUndone : Obligations.TextbookMulUndone := by
  have : Fact (Nat.Prime mMul) := ⟨prime_mMul⟩
  exact fun p x z hm hp => mul_mul_mulinv_textbook hm hp x z

theorem mul_zero_left_literal {p : Params} (hm : p.mulZeroMode = .literal) (b : Word) : mul p 0#16 b = 0#16 := by
  simp [mul_eq_deliver, hm]

theorem mul_zero_right_literal {p : Params} (hm : p.mulZeroMode = .literal) (a : Word) : mul p a 0#16 = 0#16 := by
  simp [mul_eq_deliver, hm]

theorem mul_eq_zero_of_residue {p : Params} {a b : Word}
    (h : residue p.mulZeroMode a * residue p.mulZeroMode b = -1) : mul p a b = 0#16 := by
  rw [mul_eq_deliver, h, deliver_neg_one]

/-- The product residue 65536 is -1. -/
theorem toNat_mul_mod_eq_iff (x z : Word) :
    x.toNat * z.toNat % 65537 = 65536 ↔ residue .literal x * residue .literal z = -1 := by
  rw [← (ZMod.val_injective mMul).eq_iff, ZMod.val_mul, residue_val, residue_val, val_neg_one_mMul]
  rfl

/-- Settles O13: a zero operand or the residue 65536 gives the product 0, and no other product loses its residue. -/
theorem literalMulUndoneExactly : Obligations.LiteralMulUndoneExactly := by
  have : Fact (Nat.Prime mMul) := ⟨prime_mMul⟩
  intro p x z hm
  rw [toNat_mul_mod_eq_iff]
  by_cases hz : z = 0#16
  · have hzero : mul p (mul p x z) (mulinv p z) = 0#16 := by
      rw [hz, mul_zero_right_literal hm, mul_zero_left_literal hm]
    rw [hzero]
    refine ⟨fun h => .inl ⟨hz, h.symm⟩, ?_⟩
    rintro (⟨_, h⟩ | ⟨h, _⟩)
    · exact h.symm
    · exact absurd hz h
  by_cases hx : x = 0#16
  · refine iff_of_false ?_ ?_
    · rw [hx, mul_zero_left_literal hm, mul_zero_left_literal hm, not_not]
    · rintro (⟨_, h⟩ | ⟨_, h, _⟩) <;> exact h hx
  by_cases hres : residue .literal x * residue .literal z = -1
  · refine iff_of_true ?_ (.inr ⟨hz, hx, hres⟩)
    rw [mul_eq_zero_of_residue (a := x) (by rwa [hm]), mul_zero_left_literal hm]
    exact Ne.symm hx
  · refine iff_of_false (not_not.2 (mul_mul_mulinv_literal hm hz hres)) ?_
    rintro (⟨h, _⟩ | ⟨_, _, h⟩)
    · exact hz h
    · exact hres h

/-! ### Rotation (41_primitives.md R109) -/

theorem getLsbD_rotl1 {n i : Nat} (v : BitVec n) (h : i < n) :
    (rotl1 v).getLsbD i = if i = 0 then v.getLsbD (n - 1) else v.getLsbD (i - 1) := by
  by_cases h0 : i = 0
  · simp [rotl1, h0, h0 ▸ h]
  · have hge : v.getLsbD (n - 1 + i) = false := BitVec.getLsbD_of_ge v _ (by omega)
    simp [rotl1, h0, h, hge, BitVec.getLsbD_eq_getElem (show i - 1 < n by omega)]

/-- A single place moves bit `i` to `i + 1`, around the width. -/
theorem getLsbD_rotl1_succ_mod {n i : Nat} (v : BitVec n) (h : i < n) :
    (rotl1 v).getLsbD ((i + 1) % n) = v.getLsbD i := by
  rw [getLsbD_rotl1 v (Nat.mod_lt _ (by omega))]
  by_cases hlast : i + 1 = n
  · simp [← hlast]
  · simp [Nat.mod_eq_of_lt (show i + 1 < n by omega)]

/-- `k` single places move bit `i` to `i + k`, around the width. -/
theorem getLsbD_rotl_add_mod {n i : Nat} (v : BitVec n) (k : Nat) (h : i < n) :
    (rotl v k).getLsbD ((i + k) % n) = v.getLsbD i := by
  induction k generalizing v i with
  | zero => rw [rotl, Nat.add_zero, Nat.mod_eq_of_lt h]
  | succ k ih =>
    calc (rotl (rotl1 v) k).getLsbD ((i + (k + 1)) % n)
        = (rotl (rotl1 v) k).getLsbD (((i + 1) % n + k) % n) := by rw [Nat.mod_add_mod]; congr 2; omega
      _ = (rotl1 v).getLsbD ((i + 1) % n) := ih (rotl1 v) (Nat.mod_lt _ (by omega))
      _ = v.getLsbD i := getLsbD_rotl1_succ_mod v h

theorem getLsbD_rotateLeft_add_mod {n i r : Nat} (v : BitVec n) (hr : r < n) (h : i < n) :
    (v.rotateLeft r).getLsbD ((i + r) % n) = v.getLsbD i := by
  rw [BitVec.getLsbD_rotateLeft_of_le hr]
  by_cases hwrap : i + r < n
  · simp [Nat.mod_eq_of_lt hwrap, hwrap]
  · have hmod : (i + r) % n = i + r - n := by
      rw [Nat.mod_eq_sub_mod (by omega), Nat.mod_eq_of_lt (by omega)]
    rw [hmod, show n - r + (i + r - n) = i by omega]
    simp [show i + r - n < r by omega]

theorem rotl_eq_rotateLeft {n : Nat} (v : BitVec n) (k : Nat) (hn : 0 < n) : rotl v k = v.rotateLeft (k % n) := by
  refine BitVec.eq_of_getLsbD_eq fun j hj => ?_
  have hk : k % n < n := Nat.mod_lt k hn
  obtain ⟨i, hi, rfl⟩ : ∃ i < n, (i + k % n) % n = j := by
    refine ⟨(j + (n - k % n)) % n, Nat.mod_lt _ hn, ?_⟩
    rw [Nat.mod_add_mod, show j + (n - k % n) + k % n = j + n by omega, Nat.add_mod_right, Nat.mod_eq_of_lt hj]
  rw [getLsbD_rotateLeft_add_mod v hk hi, Nat.add_mod_mod, getLsbD_rotl_add_mod v k hi]

/-- Settles O14: the rotation by `k` and the `k` single places move every bit to the same position. -/
theorem rotationByRepetition : Obligations.RotationByRepetition := by
  refine ⟨fun n v i => getLsbD_rotl1 v, fun n v k hn => ⟨rotl_eq_rotateLeft v k hn, ?_⟩⟩
  rw [rotl_eq_rotateLeft v k hn, rotl_eq_rotateLeft v (k % n) hn, Nat.mod_mod]

/-! ### Conversions (41_primitives.md R110) -/

theorem sum_testBit_range (m n : Nat) : ∑ i ∈ Finset.range n, (m.testBit i).toNat * 2 ^ i = m % 2 ^ n := by
  induction n with
  | zero => simp [Nat.mod_one]
  | succ n ih => rw [Finset.sum_range_succ, ih, Nat.mod_pow_succ, Nat.toNat_testBit, Nat.mul_comm]

/-- Settles O15: a vector's number is the sum of its bits, and `to_bits` takes it back. -/
theorem conversionsInverse : Obligations.ConversionsInverse := by
  refine ⟨fun n v => ?_, fun n N h => ?_, fun N v => ?_⟩
  · exact ((sum_testBit_range v.toNat n).trans (Nat.mod_eq_of_lt v.isLt)).symm
  · exact BitVec.toNat_ofNatLT n h
  · exact BitVec.eq_of_toNat_eq (BitVec.toNat_ofNatLT _ v.isLt)

/-! ### `split` (41_primitives.md R111) -/

theorem split_of_ne {n parts width : Nat} (v : BitVec n) (h : n ≠ parts * width) :
    split v parts width = .error .lengthMismatch := if_pos h

theorem split_of_eq {n parts width : Nat} (v : BitVec n) (h : n = parts * width) :
    split v parts width = .ok (chunks v parts width) := if_neg (not_not.2 h)

@[simp] theorem length_chunks {n : Nat} (v : BitVec n) (parts width : Nat) : (chunks v parts width).length = parts := by
  simp [chunks]

theorem getLsbD_chunks {n parts width j i : Nat} (v : BitVec n) (hj : j < (chunks v parts width).length)
    (hi : i < width) : (chunks v parts width)[j].getLsbD i = v.getLsbD (n - (j + 1) * width + i) := by
  simp [chunks, hi]

/-- The leftmost chunk is what stands on the left, and the rest are the chunks of what stands on the right. -/
theorem chunks_append {w n : Nat} (x : BitVec w) (v : BitVec n) (parts : Nat) (h : n = parts * w) :
    chunks (x ++ v) (parts + 1) w = x :: chunks v parts w := by
  unfold chunks
  rw [List.range_succ_eq_map, List.map_cons, List.map_map]
  congr 1
  · rw [show w + n - (0 + 1) * w = n by omega, BitVec.extractLsb'_append_eq_left]
  · refine List.map_congr_left fun j hj => ?_
    have hle : (j + 1) * w ≤ n := h ▸ Nat.mul_le_mul_right w (List.mem_range.1 hj)
    have hstart : w + n - (j + 1 + 1) * w = n - (j + 1) * w := by rw [Nat.succ_mul (j + 1)]; omega
    have hfits : n - (j + 1) * w + w ≤ n := by rw [Nat.succ_mul] at hle ⊢; omega
    simp only [Function.comp_apply, Nat.succ_eq_add_one, hstart]
    exact BitVec.extractLsb'_append_eq_of_add_le hfits

theorem chunks_one {w : Nat} (x : BitVec w) : chunks x 1 w = [x] := by
  simp [chunks]

theorem chunks_joinBlock (q : Quad) : chunks (joinBlock q) 4 16 = q.toList := by
  rw [joinBlock, chunks_append _ _ 3 rfl, chunks_append _ _ 2 rfl, chunks_append _ _ 1 rfl, chunks_one]
  refine List.ext_getElem (by simp) fun i hi _ => ?_
  have hlt : i < 4 := hi
  interval_cases i <;> simp

theorem chunks_joinKey (k : Vector Word 8) : chunks (joinKey k) 8 16 = k.toList := by
  rw [joinKey, chunks_append _ _ 7 rfl, chunks_append _ _ 6 rfl, chunks_append _ _ 5 rfl, chunks_append _ _ 4 rfl,
    chunks_append _ _ 3 rfl, chunks_append _ _ 2 rfl, chunks_append _ _ 1 rfl, chunks_one]
  refine List.ext_getElem (by simp) fun i hi _ => ?_
  have hlt : i < 8 := hi
  interval_cases i <;> simp

theorem blockWords_joinBlock (q : Quad) : blockWords (joinBlock q) = q := by
  apply Vector.toList_inj.1
  exact chunks_joinBlock q

theorem joinBlock_blockWords (b : Block) : joinBlock (blockWords b) = b := by
  change b.extractLsb' 48 16 ++ (b.extractLsb' 32 16 ++ (b.extractLsb' 16 16 ++ b.extractLsb' 0 16)) = b
  rw [BitVec.extractLsb'_append_extractLsb'_eq_extractLsb' (by rfl),
    BitVec.extractLsb'_append_extractLsb'_eq_extractLsb' (by rfl),
    BitVec.extractLsb'_append_extractLsb'_eq_extractLsb' (by rfl)]
  exact BitVec.extractLsb'_eq_self

/-- Settles O16: the chunks are read off `split`, and joining words puts them on the left one by one. -/
theorem splitChunks : Obligations.SplitChunks := by
  refine ⟨fun _ _ _ v => split_of_ne v, fun n parts width v h => ?_, joinBlock_blockWords, blockWords_joinBlock,
    fun k => (split_of_eq (joinKey k) rfl).trans (congrArg _ (chunks_joinKey k))⟩
  exact ⟨_, split_of_eq v h, length_chunks v parts width, fun j hj i => getLsbD_chunks v hj⟩

end Sys2Proof.Machine
end

section
/-! The family 42_key_scheduler.md: the encryption schedule and its closed form, the decryption schedule and why it is
its own inverse, and the lifecycle of the two stores. -/

namespace Sys2Proof.Machine

/-! ### The encryption schedule (42_key_scheduler.md R130 to R132) -/

theorem rotl_rotl {n : Nat} (v : BitVec n) (j k : Nat) : rotl (rotl v j) k = rotl v (j + k) := by
  induction j generalizing v with
  | zero => rw [rotl, Nat.zero_add]
  | succ j ih => rw [Nat.succ_add, rotl, rotl, ih]

theorem getElem_chunks_key {m : Nat} (w : Key) (h : m < (chunks w 8 wordBits).length) :
    (chunks w 8 wordBits)[m] = w.extractLsb' (112 - 16 * m) 16 := by
  simp only [chunks, List.getElem_map, List.getElem_range]
  congr 1
  simp only [wordBits]
  omega

/-- Pass `j` appends the eight words of the key rotated `j` times: the extraction comes before the rotation. -/
theorem getElem_extractions {n j m : Nat} (w : Key) (hm : m < 8) (h : 8 * j + m < (extractions n w).length) :
    (extractions n w)[8 * j + m] = (rotl w (25 * j)).extractLsb' (112 - 16 * m) 16 := by
  induction n generalizing w j with
  | zero => exact absurd h (Nat.not_lt_zero _)
  | succ n ih =>
    cases j with
    | zero =>
      simp only [extractions, Nat.mul_zero, Nat.zero_add]
      rw [List.getElem_append_left (by simpa using hm), getElem_chunks_key, rotl]
    | succ j =>
      have hle : (chunks w 8 wordBits).length ≤ 8 * (j + 1) + m := by rw [length_chunks]; omega
      simp only [extractions, List.getElem_append_right hle, length_chunks,
        show 8 * (j + 1) + m - 8 = 8 * j + m by omega]
      rw [ih, rotl_rotl, Nat.mul_succ, Nat.add_comm]

/-- The words of the schedule (R130). -/
theorem getElem_kse {j m : Nat} (key : Key) (hm : m < 8) (h : 8 * j + m < 52) :
    (kse key)[8 * j + m] = (rotl key (25 * j)).extractLsb' (112 - 16 * m) 16 := by
  simp only [kse, Vector.getElem_mk, List.getElem_toArray, List.getElem_take]
  exact getElem_extractions key hm _

/-- Settles O17: the command checks `KEY_LEN` alone, and its result is the schedule word by word. -/
theorem kseResult : Obligations.KseResult := by
  refine ⟨rfl, fun s => ⟨fun hlen => ⟨kse s.key, ?_, fun j m h hm => ?_⟩, fun hlen => ?_⟩⟩
  · exact exec_of_check_ok (commandChecks_of_lengthsOk (i := .kse) ⟨nofun, fun _ => hlen⟩)
  · rw [getElem_kse s.key hm h, rotl_eq_rotateLeft _ _ (by decide), BitVec.rotateLeft_mod_eq_rotateLeft]
  · exact exec_of_check_error (i := .kse) (e := .invalidKeyLength) ((checkKey_word s.keyLen).trans (if_neg hlen))

/-- Settles O18: the word is bits of the rotated key, and rotation only moves positions around the width. -/
theorem kseClosedForm : Obligations.KseClosedForm := by
  intro key i p hi hp
  obtain ⟨j, m, hm, rfl⟩ : ∃ j m, m < 8 ∧ i = 8 * j + m :=
    ⟨i / 8, i % 8, Nat.mod_lt i (by decide), (Nat.div_add_mod i 8).symm⟩
  have hdiv : (8 * j + m) / 8 = j := by omega
  have hmod : (8 * j + m) % 8 = m := by omega
  rw [getElem_kse key hm hi, hdiv, hmod, BitVec.getLsbD_extractLsb',
    decide_eq_true (show 15 - p < 16 by omega), Bool.true_and, ← getLsbD_rotl_add_mod key (25 * j) (by omega)]
  congr 1
  omega

/-! ### The decryption schedule (42_key_scheduler.md R135 to R137) -/

/-- The six words of each of the eight passes (R135). -/
theorem getElem_ksd_pass (p : Params) (z : Schedule) {i : Nat} (h : i < 8) :
    (ksd p z)[6 * i] = mulinv p z[46 - 6 * i + 2] ∧
    (ksd p z)[6 * i + 1] = addinv (if i = 0 then z[46 - 6 * i + 3] else z[46 - 6 * i + 4]) ∧
    (ksd p z)[6 * i + 2] = addinv (if i = 0 then z[46 - 6 * i + 4] else z[46 - 6 * i + 3]) ∧
    (ksd p z)[6 * i + 3] = mulinv p z[46 - 6 * i + 5] ∧
    (ksd p z)[6 * i + 4] = z[46 - 6 * i] ∧ (ksd p z)[6 * i + 5] = z[46 - 6 * i + 1] := by
  interval_cases i <;> exact ⟨rfl, rfl, rfl, rfl, rfl, rfl⟩

/-- The four words of the half-round, behind the passes (R135). -/
theorem getElem_ksd_half (p : Params) (z : Schedule) :
    (ksd p z)[48] = mulinv p z[0] ∧ (ksd p z)[49] = addinv z[1] ∧ (ksd p z)[50] = addinv z[2] ∧
      (ksd p z)[51] = mulinv p z[3] := ⟨rfl, rfl, rfl, rfl⟩

/-- Settles O19: the command has no check, and its result is the eight passes and the half-round. -/
theorem ksdResult : Obligations.KsdResult :=
  ⟨rfl, fun s => ⟨ksd s.params s.ze, exec_of_check_ok (i := .ksd) rfl, fun _ => getElem_ksd_pass s.params s.ze,
    getElem_ksd_half s.params s.ze⟩⟩

/-! ### The decryption schedule read backwards (42_key_scheduler.md R136) -/

/-- What becomes of a word on its way to place `k` of the decryption schedule, by the slot of `k` in its round. -/
def ksdOp (p : Params) (k : Fin 52) : Word → Word :=
  match k.val % 6 with
  | 0 | 3 => mulinv p
  | 1 | 2 => addinv
  | _ => id

/-- The word that word `k` of the decryption schedule is made of. Round `i` takes slots 4 and 5 from round `7 - i` and the
other slots from round `8 - i`, round 8 being the half-round; slots 1 and 2 trade places but for the first round and the
half-round. -/
def ksdSource (k : Fin 52) : Fin 52 :=
  let round := k.val / 6
  let slot := k.val % 6
  if h : 4 ≤ slot then ⟨6 * (7 - round) + slot, by omega⟩
  else if (slot = 1 ∨ slot = 2) ∧ round ≠ 0 ∧ round ≠ 8 then ⟨6 * (8 - round) + (3 - slot), by omega⟩
  else ⟨6 * (8 - round) + slot, by omega⟩

/-- The table of R136, word by word. -/
theorem getElem_ksd (p : Params) (z : Schedule) (k : Fin 52) : (ksd p z)[k] = ksdOp p k z[ksdSource k] := by
  fin_cases k <;> rfl

theorem ksdSource_ksdSource : ∀ k, ksdSource (ksdSource k) = k := by decide

theorem ksdOp_ksdSource (p : Params) (k : Fin 52) : ksdOp p (ksdSource k) = ksdOp p k := by
  fin_cases k <;> rfl

theorem ksdOp_involutive [Fact (Nat.Prime mMul)] {p : Params} (hp : p.mulinvZero = 0#16) (k : Fin 52) :
    Function.Involutive (ksdOp p k) := by
  unfold ksdOp
  split
  · exact mulinv_mulinv hp
  · exact mulinv_mulinv hp
  · exact addinv_addinv
  · exact addinv_addinv
  · exact fun _ => rfl

/-- Settles O20: the second derivation takes each word back to its place and does to it again what the first did. -/
theorem ksdInvolution : Obligations.KsdInvolution := by
  have : Fact (Nat.Prime mMul) := ⟨prime_mMul⟩
  intro p z hp
  refine Vector.ext fun k hk => ?_
  calc (ksd p (ksd p z))[(⟨k, hk⟩ : Fin 52)]
      = ksdOp p ⟨k, hk⟩ (ksdOp p ⟨k, hk⟩ z[(⟨k, hk⟩ : Fin 52)]) := by
        simp only [getElem_ksd, ksdOp_ksdSource, ksdSource_ksdSource]
    _ = z[k] := ksdOp_involutive hp _ _

/-! ### The lifecycle of the stores (42_key_scheduler.md R138, 20_memory.md R56) -/

theorem commandResult_ze_cases (i : Instr) (s : State) :
    (commandResult i s).ze = s.ze ∨ (commandResult i s).ze = kse s.key := by
  cases i with
  | kse | encrypt | decrypt => exact .inr rfl
  | _ => exact .inl rfl

theorem commandResult_zd_cases (i : Instr) (s : State) :
    (commandResult i s).zd = s.zd ∨ (commandResult i s).zd = ksd s.params s.ze ∨
      (commandResult i s).zd = ksd s.params (kse s.key) := by
  cases i with
  | ksd => exact .inr (.inl rfl)
  | decrypt => exact .inr (.inr rfl)
  | _ => exact .inl rfl

theorem engineStep_ze_cases {s t : State} (h : engineStep s = .next t) : t.ze = s.ze ∨ t.ze = kse s.key := by
  obtain ⟨_, _, rfl⟩ | ⟨i, _, rfl⟩ := engineStep_ends h
  · exact .inl rfl
  · exact commandResult_ze_cases i s

theorem engineStep_zd_cases {s t : State} (h : engineStep s = .next t) :
    t.zd = s.zd ∨ t.zd = ksd s.params s.ze ∨ t.zd = ksd s.params (kse s.key) := by
  obtain ⟨_, _, rfl⟩ | ⟨i, _, rfl⟩ := engineStep_ends h
  · exact .inl rfl
  · exact commandResult_zd_cases i s

/-- The host can write no word of a store. -/
theorem memWrite_stores (s : State) (a : Index) (v : Word) :
    (memWrite s a v).ze = s.ze ∧ (memWrite s a v).zd = s.zd := by
  obtain ⟨_, h⟩ | ⟨_, _, h⟩ | ⟨_, r, _, h⟩ := memWrite_cases s a v <;> rw [h]
  · exact ⟨rfl, rfl⟩
  · exact ⟨rfl, rfl⟩
  · cases r <;> exact ⟨rfl, rfl⟩

theorem stores_eq_of_sameRegisters {s t : State} (h : SameRegisters s t) : t.ze = s.ze ∧ t.zd = s.zd :=
  ⟨Vector.ext fun i hi => h (.ze ⟨i, hi⟩), Vector.ext fun i hi => h (.zd ⟨i, hi⟩)⟩

/-- Of the host's lines only reset touches the stores. -/
theorem hostStep_stores_cases (s : State) :
    ((hostStep s).ze = s.ze ∧ (hostStep s).zd = s.zd) ∨
    ((hostStep s).ze = Vector.replicate 52 0#16 ∧ (hostStep s).zd = Vector.replicate 52 0#16) := by
  obtain ⟨a, v, rest, _, h⟩ | ⟨rest, _, h⟩ | ⟨hregs, _, _⟩ := hostStep_cases s
  · rw [h]; exact .inl (memWrite_stores { s with script := rest } a v)
  · rw [h]; exact .inr ⟨rfl, rfl⟩
  · exact .inl (stores_eq_of_sameRegisters hregs)

@[simp] theorem State.takeTurn_key (s : State) : s.takeTurn.key = s.key := by simp [State.key]

/-- Settles O57: a completion derives a store whole or leaves it, and a host line leaves both or is reset. -/
theorem storesWrittenWhole : Obligations.StoresWrittenWhole := by
  intro s t hstep
  obtain ⟨_, hengine⟩ | ⟨_, rfl⟩ := step_cases hstep
  · have hze := engineStep_ze_cases hengine
    have hzd := engineStep_zd_cases hengine
    simp only [State.takeTurn_ze, State.takeTurn_zd, State.takeTurn_key, State.takeTurn_params] at hze hzd
    exact ⟨fun hne => .inr (hze.resolve_left hne), fun hne => .inr (hzd.resolve_left hne)⟩
  · obtain ⟨hze, hzd⟩ | ⟨hze, hzd⟩ := hostStep_stores_cases s.takeTurn
    · rw [State.takeTurn_ze] at hze
      rw [State.takeTurn_zd] at hzd
      exact ⟨fun hne => absurd hze hne, fun hne => absurd hzd hne⟩
    · exact ⟨fun _ => .inl hze, fun _ => .inl hzd⟩

end Sys2Proof.Machine
end

section
/-! The family 43_round_engine.md: the rounds of `transform`, the two commands that run it, and why the decryption schedule
undoes it. -/

namespace Sys2Proof.Machine

/-! ### The sequence of the round words (43_round_engine.md R150) -/

/-- The words before round `n`, of no meaning after the eighth. -/
def roundWords (p : Params) (z : Schedule) (q : Quad) (n : Nat) : Quad :=
  if h : n ≤ 8 then afterRounds p z q n h else q

theorem roundWords_of_le (p : Params) (z : Schedule) (q : Quad) {n : Nat} (h : n ≤ 8) :
    roundWords p z q n = afterRounds p z q n h := dif_pos h

theorem roundWords_succ (p : Params) (z : Schedule) (q : Quad) {r : Nat} (h : r < 8) :
    roundWords p z q (r + 1) = fullRound p z r h (roundWords p z q r) := by
  rw [roundWords_of_le p z q h, roundWords_of_le p z q h.le, afterRounds]

/-- Settles O21: the sequence is the words before each round, and a round is its ten values. -/
theorem transformRounds : Obligations.TransformRounds := by
  refine fun p q z => ⟨roundWords p z q, roundWords_of_le p z q (Nat.zero_le 8), ?_, ?_⟩
  · rintro r h _ _ _ _ _ _ _ _ _ _ rfl rfl rfl rfl rfl rfl rfl rfl rfl rfl
    rw [roundWords_succ p z q h]
    exact ⟨fun hr => if_pos hr, fun hr => if_neg (not_not.2 hr)⟩
  · rw [roundWords_of_le p z q (Nat.le_refl 8)]
    rfl

/-! ### The parts of a round

A round is three layers: the first four subkeys meet the four words, the middle two subkeys mix the words, and the middle
words are exchanged (43_round_engine.md R150, R152). -/

/-- The subkeys of slots 0 to 3 of round `r`, round 8 being the half-round (R152). -/
def slotKeys (z : Schedule) (r : Nat) (h : r ≤ 8) : Quad := #v[z[6 * r], z[6 * r + 1], z[6 * r + 2], z[6 * r + 3]]

/-- The values `one` to `four` of a round on the words `q` with the subkeys `k`. -/
def keyLayer (p : Params) (k q : Quad) : Quad := #v[mul p q[0] k[0], add q[1] k[1], add q[2] k[2], mul p q[3] k[3]]

/-- The values `nine` and `ten`, made of `five` and `six` with the subkeys of slots 4 and 5. -/
def mixPair (p : Params) (k4 k5 five six : Word) : Word × Word :=
  let seven := mul p five k4
  let nine := mul p (add six seven) k5
  (nine, add seven nine)

/-- The words of `q` in place, the even ones under `m.1` and the odd ones under `m.2`. -/
def maskWords (m : Word × Word) (q : Quad) : Quad :=
  #v[xor16 q[0] m.1, xor16 q[1] m.2, xor16 q[2] m.1, xor16 q[3] m.2]

/-- The values `one` to `four` combined with `nine` and `ten`, each in the lane it came from. -/
def mixLayer (p : Params) (k4 k5 : Word) (q : Quad) : Quad :=
  maskWords (mixPair p k4 k5 (xor16 q[0] q[2]) (xor16 q[1] q[3])) q

/-- The middle words exchanged, but for the two ends: nothing stands before round 0, and round 7 is not crossed (R151). -/
def crossed (r : Nat) (q : Quad) : Quad := if r = 0 ∨ r = 8 then q else #v[q[0], q[2], q[1], q[3]]

/-- A round is its three layers; the exchange at its end is the one before the next round. -/
theorem fullRound_eq_layers (p : Params) (z : Schedule) (r : Nat) (h : r < 8) (q : Quad) :
    fullRound p z r h q =
      crossed (r + 1) (mixLayer p z[6 * r + 4] z[6 * r + 5] (keyLayer p (slotKeys z r h.le) q)) := by
  unfold fullRound crossed
  by_cases hr : r = 7
  · rw [if_neg (not_not.2 hr), if_pos (by omega)]; rfl
  · rw [if_pos hr, if_neg (by omega)]; rfl

theorem halfRound_eq_keyLayer (p : Params) (z : Schedule) (q : Quad) :
    halfRound p z q = keyLayer p (slotKeys z 8 (Nat.le_refl 8)) q := rfl

/-! ### The commands (43_round_engine.md R153, R154) -/

/-- A wrong block length fails every command that takes a block, whatever else it checks (60_exceptions.md R203). -/
theorem commandChecks_of_blkLen_ne {i : Instr} {s : State} (hi : takesBlock i = true) (h : s.blkLen ≠ 64#16) :
    commandChecks i s = .error .invalidBlockLength := by
  cases i with
  | tfe | tfd => exact (checkBlock_word s.blkLen).trans (if_neg h)
  | encrypt | decrypt => exact (validate_word s.blkLen s.keyLen).trans (if_neg h)
  | _ => cases hi

theorem exec_of_blkLen_ne {i : Instr} {s : State} (hi : takesBlock i = true) (h : s.blkLen ≠ 64#16) :
    exec i s = .next { s with status := 0x0026#16 } :=
  exec_of_check_error (commandChecks_of_blkLen_ne hi h)

/-- The block length is the one check of the commands that take a block and no key. -/
theorem exec_of_blkLen_eq {i : Instr} {s : State} (hi : takesKey i = false) (h : s.blkLen = 64#16) :
    exec i s = .next (commandResult i s).finish :=
  exec_of_check_ok (commandChecks_of_lengthsOk ⟨fun _ => h, fun hk => by simp [hi] at hk⟩)

@[simp] theorem add_zero_right (a : Word) : add a 0#16 = a :=
  BitVec.eq_of_toNat_eq ((toNat_add a 0#16).trans (Nat.mod_eq_of_lt a.isLt))

/-- With zero subkeys every product of a `LITERAL` round is zero, so the mixing changes nothing (R153). -/
theorem fullRound_zero_literal {p : Params} (hm : p.mulZeroMode = .literal) (r : Nat) (h : r < 8) (q : Quad) :
    fullRound p (Vector.replicate 52 0#16) r h q = crossed (r + 1) #v[0#16, q[1], q[2], 0#16] := by
  simp [fullRound_eq_layers, mixLayer, mixPair, maskWords, keyLayer, slotKeys, mul_zero_right_literal hm, xor16]

theorem transform_zero_literal {p : Params} (hm : p.mulZeroMode = .literal) (q : Quad) :
    transform p q (Vector.replicate 52 0#16) = #v[0#16, q[2], q[1], 0#16] := by
  simp [transform, afterRounds, fullRound_zero_literal hm, crossed, halfRound, mul_zero_right_literal hm]

/-- Settles O22: the command checks `BLK_LEN` alone, and its result is the transform under `ZE`. -/
theorem tfeResult : Obligations.TfeResult := by
  refine ⟨rfl, fun s => ⟨exec_of_blkLen_eq rfl, exec_of_blkLen_ne rfl, fun hlen hm hz => ?_⟩⟩
  rw [← transform_zero_literal hm s.x, ← hz]
  exact exec_of_blkLen_eq rfl hlen

/-- Settles O23: the command checks `BLK_LEN` alone, and its result is the transform under `ZD`. -/
theorem tfdResult : Obligations.TfdResult := by
  refine ⟨rfl, fun s => ⟨exec_of_blkLen_eq rfl, exec_of_blkLen_ne rfl, fun hlen hm hz => ?_⟩⟩
  rw [← transform_zero_literal hm s.x, ← hz]
  exact exec_of_blkLen_eq rfl hlen

/-! ### Each layer undone (43_round_engine.md R155) -/

theorem quad_eq_words (q : Quad) : #v[q[0], q[1], q[2], q[3]] = q := by
  refine Vector.ext fun i hi => ?_
  interval_cases i <;> rfl

theorem maskWords_maskWords (m : Word × Word) (q : Quad) : maskWords m (maskWords m q) = q := by
  simpa [maskWords, xor16_xor16] using quad_eq_words q

/-- A mask common to two words leaves their xor. -/
theorem xor16_mask (a b m : Word) : xor16 (xor16 a m) (xor16 b m) = xor16 a b := by
  calc (a ^^^ m) ^^^ (b ^^^ m) = (a ^^^ b) ^^^ m ^^^ m := by ac_rfl
    _ = a ^^^ b := xor16_xor16 (a ^^^ b) m

/-- `five` and `six` are unchanged by the mixing, so the same `nine` and `ten` come again and cancel. -/
theorem mixLayer_mixLayer (p : Params) (k4 k5 : Word) (q : Quad) : mixLayer p k4 k5 (mixLayer p k4 k5 q) = q := by
  have hpair : ∀ m, xor16 (maskWords m q)[0] (maskWords m q)[2] = xor16 q[0] q[2] ∧
      xor16 (maskWords m q)[1] (maskWords m q)[3] = xor16 q[1] q[3] :=
    fun m => ⟨xor16_mask q[0] q[2] m.1, xor16_mask q[1] q[3] m.2⟩
  obtain ⟨hfive, hsix⟩ := hpair (mixPair p k4 k5 (xor16 q[0] q[2]) (xor16 q[1] q[3]))
  simp only [mixLayer] at hfive hsix ⊢
  rw [hfive, hsix, maskWords_maskWords]

/-- The exchange is its own inverse, and the crossings lie symmetrically: none at the ends. -/
theorem crossed_crossed {i r : Nat} (h : i + r = 8) (q : Quad) : crossed i (crossed r q) = q := by
  unfold crossed
  by_cases hi : i = 0 ∨ i = 8
  · rw [if_pos hi, if_pos (by omega)]
  · rw [if_neg hi, if_neg (by omega)]
    exact quad_eq_words q

theorem keyLayer_crossed (p : Params) (i : Nat) (k q : Quad) :
    keyLayer p (crossed i k) (crossed i q) = crossed i (keyLayer p k q) := by
  unfold crossed
  split <;> rfl

/-- The subkeys that undo the subkeys `k` of slots 0 to 3. -/
def inverseKeys (p : Params) (k : Quad) : Quad := #v[mulinv p k[0], addinv k[1], addinv k[2], mulinv p k[3]]

/-- Both multiplications of the key layer are undone by the inverse subkeys. -/
def KeyLayerUndone (p : Params) (k q : Quad) : Prop :=
  mul p (mul p q[0] k[0]) (mulinv p k[0]) = q[0] ∧ mul p (mul p q[3] k[3]) (mulinv p k[3]) = q[3]

theorem keyLayer_inverseKeys {p : Params} {k q : Quad} (h : KeyLayerUndone p k q) :
    keyLayer p (inverseKeys p k) (keyLayer p k q) = q := by
  obtain ⟨h0, h3⟩ := h
  simpa [keyLayer, inverseKeys, h0, h3, add_add_addinv] using quad_eq_words q

/-- The decryption schedule runs backwards through the rounds, with inverse subkeys exchanged as the words are (R135). -/
theorem slotKeys_ksd (p : Params) (z : Schedule) {i r : Nat} (h : i + r = 8) :
    slotKeys (ksd p z) i (by omega) = crossed i (inverseKeys p (slotKeys z r (by omega))) := by
  obtain rfl : r = 8 - i := by omega
  have hi : i ≤ 8 := by omega
  interval_cases i <;> rfl

theorem mixKeys_ksd (p : Params) (z : Schedule) {i r : Nat} (h : i + r = 7) :
    (ksd p z)[6 * i + 4] = z[6 * r + 4] ∧ (ksd p z)[6 * i + 5] = z[6 * r + 5] := by
  obtain rfl : r = 7 - i := by omega
  have hi : i ≤ 7 := by omega
  interval_cases i <;> exact ⟨rfl, rfl⟩

/-! ### The transform undone (43_round_engine.md R155) -/

/-- The eighteen multiplications by slots 0 and 3 of the rounds and of the half-round are all undone. -/
def RoundsUndone (p : Params) (q : Quad) (z : Schedule) : Prop :=
  ∀ (r : Nat) (h : r ≤ 8), KeyLayerUndone p (slotKeys z r h) (afterRounds p z q r h)

section
variable {p : Params} {q : Quad} {z : Schedule}

/-- The key layer of decryption round `i` undoes that of encryption round `8 - i`, across the exchange. -/
theorem keyLayer_ksd (hmul : RoundsUndone p q z) {i r : Nat} (h : i + r = 8) :
    keyLayer p (slotKeys (ksd p z) i (by omega))
        (crossed i (keyLayer p (slotKeys z r (by omega)) (afterRounds p z q r (by omega)))) =
      crossed i (afterRounds p z q r (by omega)) := by
  rw [slotKeys_ksd p z h, keyLayer_crossed, keyLayer_inverseKeys (hmul r (by omega))]

/-- The words before decryption round `i` are the values `one` to `four` of encryption round `8 - i`, exchanged. -/
theorem afterRounds_ksd (hmul : RoundsUndone p q z) {i r : Nat} (h : i + r = 8) :
    afterRounds p (ksd p z) (transform p q z) i (by omega) =
      crossed i (keyLayer p (slotKeys z r (by omega)) (afterRounds p z q r (by omega))) := by
  induction i generalizing r with
  | zero =>
    obtain rfl : r = 8 := by omega
    rfl
  | succ i ih =>
    obtain ⟨h4, h5⟩ := mixKeys_ksd p z (i := i) (r := r) (by omega)
    have hprev : i + (r + 1) = 8 := by omega
    rw [afterRounds, ih hprev, fullRound_eq_layers, keyLayer_ksd hmul hprev, afterRounds, fullRound_eq_layers,
      crossed_crossed hprev, h4, h5, mixLayer_mixLayer]

theorem transform_ksd_transform (hmul : RoundsUndone p q z) : transform p (transform p q z) (ksd p z) = q := by
  have hends : 8 + 0 = 8 := rfl
  calc transform p (transform p q z) (ksd p z)
      = keyLayer p (slotKeys (ksd p z) 8 (Nat.le_refl 8))
          (afterRounds p (ksd p z) (transform p q z) 8 (Nat.le_refl 8)) := halfRound_eq_keyLayer p (ksd p z) _
    _ = crossed 8 (afterRounds p z q 0 (Nat.zero_le 8)) := by
        rw [afterRounds_ksd hmul hends, keyLayer_ksd hmul hends]
    _ = q := rfl

end

/-- Settles O24: in TEXTBOOK mode every multiplication is undone. -/
theorem transformUndoneTextbook : Obligations.TransformUndoneTextbook := by
  intro p q z hm hp
  have hmul : ∀ x k, mul p (mul p x k) (mulinv p k) = x := fun x k => textbookMulUndone p x k hm hp
  exact transform_ksd_transform fun r _ => ⟨hmul _ _, hmul _ _⟩

/-- The two exceptions of 41_primitives.md R113 (f) are the only ones. -/
theorem mul_mul_mulinv_of_mulUndone {p : Params} (hm : p.mulZeroMode = .literal) {x k : Word} (h : MulUndone x k) :
    mul p (mul p x k) (mulinv p k) = x := by
  obtain ⟨hzero, hres⟩ := h
  by_contra hne
  obtain hex | ⟨hk, hx, hmod⟩ := (literalMulUndoneExactly p x k hm).1 hne
  · exact hzero hex
  · exact hres ⟨hx, hk, hmod⟩

/-- Settles O25: without an exception in slots 0 and 3 every multiplication to be undone is undone. -/
theorem transformUndoneLiteral : Obligations.TransformUndoneLiteral := by
  rintro p q z hm ⟨hrounds, h0, h3⟩
  refine transform_ksd_transform fun r h => ?_
  obtain hlt | rfl := Nat.lt_or_eq_of_le h
  · obtain ⟨hr0, hr3⟩ := hrounds r hlt
    exact ⟨mul_mul_mulinv_of_mulUndone hm hr0, mul_mul_mulinv_of_mulUndone hm hr3⟩
  · exact ⟨mul_mul_mulinv_of_mulUndone hm h0, mul_mul_mulinv_of_mulUndone hm h3⟩

end Sys2Proof.Machine
end

section
/-! The family 44_block_codec.md: the functions `encrypt` and `decrypt`, the two commands that run them, the round trip and
where it fails, and that a command's answer depends on its inputs alone. -/

namespace Sys2Proof.Machine

/-! ### The functions `encrypt` and `decrypt` (44_block_codec.md R170 to R172) -/

/-- The block is checked first, so the key's length does not matter here. -/
theorem validate_of_block_ne {n m : Nat} (h : n ≠ 64) : validate n m = .error .invalidBlockLength := by
  simp [validate, checkBlock, h]

theorem validate_of_key_ne {m : Nat} (h : m ≠ 128) : validate 64 m = .error .invalidKeyLength := by
  simp [validate, checkBlock, checkKey, h]

theorem validate_lengths : validate 64 128 = .ok () := rfl

section
variable (p : Params)

theorem encrypt_of_validate_error {n m : Nat} (b : BitVec n) (key : BitVec m) {e : ErrKind}
    (h : validate n m = .error e) : encrypt p b key = .error e := by
  simp [encrypt, h]

theorem decrypt_of_validate_error {n m : Nat} (b : BitVec n) (key : BitVec m) {e : ErrKind}
    (h : validate n m = .error e) : decrypt p b key = .error e := by
  simp [decrypt, h]

/-- On the right lengths nothing is cut off or filled up. -/
theorem encrypt_eq_transform (b : Block) (key : Key) :
    encrypt p b key = .ok (joinBlock (transform p (blockWords b) (kse key))) := by
  simp [encrypt, validate_lengths]

theorem decrypt_eq_transform (b : Block) (key : Key) :
    decrypt p b key = .ok (joinBlock (transform p (blockWords b) (ksd p (kse key)))) := by
  simp [decrypt, validate_lengths]

end

theorem blockWords_of_split {b : Block} {q : Quad} (h : split b 4 16 = .ok q.toList) : blockWords b = q := by
  rw [split_of_eq b rfl] at h
  exact Vector.toList_inj.1 (Except.ok.inj h)

/-- Settles O26: both functions are the validation and then the transform of the split block. -/
theorem facadeFunctions : Obligations.FacadeFunctions := by
  refine ⟨fun p n m b key => ⟨fun hn => ?_, ?_⟩, fun p b key q hq => ?_⟩
  · have h := validate_of_block_ne (m := m) hn
    exact ⟨encrypt_of_validate_error p b key h, decrypt_of_validate_error p b key h⟩
  · rintro rfl hm
    have h := validate_of_key_ne hm
    exact ⟨encrypt_of_validate_error p b key h, decrypt_of_validate_error p b key h⟩
  · rw [← blockWords_of_split hq]
    exact ⟨encrypt_eq_transform p b key, decrypt_eq_transform p b key⟩

/-! ### The commands (44_block_codec.md R173, R174) -/

/-- With both lengths right no command's check fails. -/
theorem exec_of_lengths (i : Instr) {s : State} (hblk : s.blkLen = 64#16) (hkey : s.keyLen = 128#16) :
    exec i s = .next (commandResult i s).finish :=
  exec_of_check_ok (commandChecks_of_lengthsOk ⟨fun _ => hblk, fun _ => hkey⟩)

/-- A wrong key length fails every command that takes a key, once the block length is right (60_exceptions.md R203). -/
theorem commandChecks_of_keyLen_ne {i : Instr} {s : State} (hi : takesKey i = true) (hblk : s.blkLen = 64#16)
    (hkey : s.keyLen ≠ 128#16) : commandChecks i s = .error .invalidKeyLength := by
  cases i with
  | kse => exact (checkKey_word s.keyLen).trans (if_neg hkey)
  | encrypt | decrypt => exact (validate_word s.blkLen s.keyLen).trans ((if_pos hblk).trans (if_neg hkey))
  | _ => cases hi

theorem exec_of_keyLen_ne {i : Instr} {s : State} (hi : takesKey i = true) (hblk : s.blkLen = 64#16)
    (hkey : s.keyLen ≠ 128#16) : exec i s = .next { s with status := 0x0036#16 } :=
  exec_of_check_error (commandChecks_of_keyLen_ne hi hblk hkey)

/-- The words of the block operand are `X0` to `X3`. -/
@[simp] theorem blockWords_block (s : State) : blockWords s.block = s.x := blockWords_joinBlock s.x

/-- Settles O27: the checks in their order, and the function reads the same words as the command. -/
theorem encryptResult : Obligations.EncryptResult := by
  refine ⟨rfl, fun s => ⟨exec_of_blkLen_ne rfl, exec_of_keyLen_ne rfl, fun hblk hkey =>
    ⟨_, exec_of_lengths .encrypt hblk hkey, rfl, ?_⟩⟩⟩
  rw [encrypt_eq_transform, blockWords_block]
  rfl

/-- Settles O28: as for `ENCRYPT`, through the decryption schedule. -/
theorem decryptResult : Obligations.DecryptResult := by
  refine ⟨rfl, fun s => ⟨exec_of_blkLen_ne rfl, exec_of_keyLen_ne rfl, fun hblk hkey =>
    ⟨_, exec_of_lengths .decrypt hblk hkey, rfl, ?_⟩⟩⟩
  rw [decrypt_eq_transform, blockWords_block]
  rfl

/-- Settles O29: no command writes a length, so every stage passes its checks, and the last one's state is the facade's. -/
theorem facadeEqualsStaged : Obligations.FacadeEqualsStaged := by
  intro s hblk hkey
  have hpass : ∀ (i : Instr) (t : State), t.blkLen = s.blkLen → t.keyLen = s.keyLen →
      exec i t = .next (commandResult i t).finish :=
    fun i t hb hk => exec_of_lengths i (hb.trans hblk) (hk.trans hkey)
  exact ⟨⟨_, _, hpass .kse s rfl rfl, hpass .tfe _ rfl rfl, hpass .encrypt s rfl rfl⟩,
    ⟨_, _, _, hpass .kse s rfl rfl, hpass .ksd _ rfl rfl, hpass .tfd _ rfl rfl, hpass .decrypt s rfl rfl⟩⟩

/-! ### The round trip (44_block_codec.md R175) -/

/-- `DECRYPT` of `ENCRYPT`'s output, under the key and the lengths `ENCRYPT` left. -/
theorem exec_encrypt_decrypt {s : State} (hblk : s.blkLen = 64#16) (hkey : s.keyLen = 128#16) :
    ∃ t u : State, exec .encrypt s = .next t ∧ exec .decrypt { t with x := t.y } = .next u ∧
      u.y = transform s.params (transform s.params s.x (kse s.key)) (ksd s.params (kse s.key)) :=
  ⟨_, _, exec_of_lengths .encrypt hblk hkey, exec_of_lengths .decrypt hblk hkey, rfl⟩

/-- Settles O30: the transform under the decryption schedule undoes the one under the encryption schedule. -/
theorem roundTripTextbook : Obligations.RoundTripTextbook := by
  intro s hm hp hblk hkey
  obtain ⟨t, u, ht, hu, hy⟩ := exec_encrypt_decrypt hblk hkey
  exact ⟨t, u, ht, hu, hy.trans (transformUndoneTextbook s.params s.x (kse s.key) hm hp)⟩

/-- Settles O31: the same undoing, where the eighteen multiplications meet no exception. -/
theorem roundTripLiteral : Obligations.RoundTripLiteral := by
  intro s hm hblk hkey hundone
  obtain ⟨t, u, ht, hu, hy⟩ := exec_encrypt_decrypt hblk hkey
  exact ⟨t, u, ht, hu, hy.trans (transformUndoneLiteral s.params s.x (kse s.key) hm hundone)⟩

section
variable {p : Params}

theorem ksdOp_isFixedPt_zero (hp : p.mulinvZero = 0#16) (k : Fin 52) :
    Function.IsFixedPt (ksdOp p k) 0#16 := by
  unfold ksdOp
  split
  · exact hp
  · exact hp
  · rfl
  · rfl
  · rfl

/-- Zero subkeys are their own inverses where `MULINV_ZERO` is 0. -/
theorem ksd_zero (hp : p.mulinvZero = 0#16) : ksd p (Vector.replicate 52 0#16) = Vector.replicate 52 0#16 := by
  refine Vector.ext fun k hk => (getElem_ksd p _ ⟨k, hk⟩).trans ?_
  simpa using (ksdOp_isFixedPt_zero hp ⟨k, hk⟩).eq

/-- Under the zero key a `LITERAL` round trip loses the outer words: each is multiplied by 0. -/
theorem transform_zero_key_roundTrip (hm : p.mulZeroMode = .literal) (hp : p.mulinvZero = 0#16) (q : Quad) :
    transform p (transform p q (kse 0#128)) (ksd p (kse 0#128)) = #v[0#16, q[1], q[2], 0#16] := by
  rw [kse_zero, ksd_zero hp, transform_zero_literal hm, transform_zero_literal hm]
  rfl

end

/-- The first counterexample of R175: the zero key and the block `1234 5678 9ABC DEF0`. -/
def zeroKeyState : State :=
  { State.reset with blkLen := 64#16, keyLen := 128#16, x := #v[0x1234, 0x5678, 0x9ABC, 0xDEF0] }

theorem zeroKeyState_key : zeroKeyState.key = 0#128 := by decide

/-- Settles O32: of the block `1234 5678 9ABC DEF0` under the zero key, `0000 5678 9ABC 0000` comes back. -/
theorem roundTripFailsInLiteral : Obligations.RoundTripFailsInLiteral := by
  intro hall
  obtain ⟨t, u, ht, hu, hy⟩ := exec_encrypt_decrypt (s := zeroKeyState) rfl rfl
  have hback : u.y = zeroKeyState.x := hall zeroKeyState t u rfl rfl rfl ht hu
  have hlost : u.y = #v[0#16, 0x5678#16, 0x9ABC#16, 0#16] := by
    rw [hy, zeroKeyState_key]
    exact transform_zero_key_roundTrip rfl rfl zeroKeyState.x
  exact absurd (hlost.symm.trans hback) (by decide)

/-! ### The inputs and nothing else (44_block_codec.md R176, 10_state.md R37) -/

/-- The two states agree in all that `ENCRYPT` and `DECRYPT` read. -/
structure SameInputs (s s' : State) : Prop where
  params : s.params = s'.params
  x : s.x = s'.x
  k : s.k = s'.k
  blkLen : s.blkLen = s'.blkLen
  keyLen : s.keyLen = s'.keyLen

/-- The checks of a command read the two lengths alone. -/
theorem commandChecks_congr (i : Instr) {s s' : State} (hblk : s.blkLen = s'.blkLen) (hkey : s.keyLen = s'.keyLen) :
    commandChecks i s = commandChecks i s' := by
  cases i <;> simp only [commandChecks, hblk, hkey]

theorem errStatus_ne_done (e : ErrKind) : errStatus e ≠ doneStatus := by
  cases e <;> decide

section
variable {i : Instr} {s s' : State}

/-- What `ENCRYPT` and `DECRYPT` write are functions of their inputs. -/
theorem SameInputs.commandResult_reg (h : SameInputs s s') (hi : i = .encrypt ∨ i = .decrypt) {r : Reg}
    (hw : writes i r = true) : (commandResult i s).finish.reg r = (commandResult i s').finish.reg r := by
  have hkey : s.key = s'.key := congrArg joinKey h.k
  obtain rfl | rfl := hi
  · cases r with
    | y j | ze j => simp only [State.reg, State.finish, commandResult, h.params, h.x, hkey]
    | _ => cases hw
  · cases r with
    | y j | ze j | zd j => simp only [State.reg, State.finish, commandResult, h.params, h.x, hkey]
    | _ => cases hw

/-- `ENCRYPT` and `DECRYPT` leave their inputs and read nothing they write, so a second run writes what stands there. -/
theorem commandResult_finish_again (hi : i = .encrypt ∨ i = .decrypt) :
    (commandResult i (commandResult i s).finish).finish = (commandResult i s).finish := by
  obtain rfl | rfl := hi <;> rfl

end

/-- Settles O33: the checks agree, and behind them the results do. -/
theorem facadeIgnoresHistory : Obligations.FacadeIgnoresHistory := by
  intro i s s' hi hparams hx hk hblk hkey
  have hchecks := commandChecks_congr i hblk hkey
  cases hc : commandChecks i s with
  | error e =>
    refine ⟨_, _, exec_of_check_error hc, exec_of_check_error (hchecks.symm.trans hc), rfl, fun r _ hdone => ?_⟩
    exact absurd hdone (errStatus_ne_done e)
  | ok =>
    refine ⟨_, _, exec_of_check_ok hc, exec_of_check_ok (hchecks.symm.trans hc), rfl, fun r hw _ => ?_⟩
    exact SameInputs.commandResult_reg ⟨hparams, hx, hk, hblk, hkey⟩ hi hw

/-- Settles O34: the lengths still stand, so the same check fails again or the same results are written again. -/
theorem facadeRepeatable : Obligations.FacadeRepeatable := by
  intro i s t hi h
  rw [exec_eq_guarded] at h
  obtain ⟨e, hc, rfl⟩ | ⟨hc, rfl⟩ := guarded_cases h
  · exact exec_of_check_error ((commandChecks_congr i rfl rfl).trans hc)
  · have hchecks : commandChecks i (commandResult i s).finish = commandChecks i s := by
      obtain rfl | rfl := hi <;> exact commandChecks_congr _ rfl rfl
    rw [exec_of_check_ok (hchecks.trans hc), commandResult_finish_again hi]

end Sys2Proof.Machine
end

section
/-! The family 60_exceptions.md: the error statuses, the order of the checks, how a completion step ends, and what an error
leaves to the host. -/

namespace Sys2Proof.Machine

/-! ### The values of `STATUS` after an error (60_exceptions.md R200, R205) -/

/-- The word of R205, field by field. -/
theorem errStatus_fields (e : ErrKind) :
    statusBusy (errStatus e) = false ∧ statusDone (errStatus e) = true ∧ statusErr (errStatus e) = true ∧
      (statusErrCode (errStatus e)).toNat = e.code := by
  cases e <;> decide

theorem errStatus_eq_ofNat (e : ErrKind) : errStatus e = BitVec.ofNat 16 (0x0006 + 16 * e.code) := by
  cases e <;> rfl

/-- Settles O35: the one write, and the fields of the word it stores. -/
theorem raiseWritesStatusOnly : Obligations.RaiseWritesStatusOnly := by
  intro e s
  obtain ⟨hbusy, hdone, herr, hcode⟩ := errStatus_fields e
  refine ⟨?_, hbusy, hdone, herr, hcode.trans ?_⟩
  · rw [← errStatus_eq_ofNat]; rfl
  · cases e <;> rfl

/-! ### The order of the checks (60_exceptions.md R203, R204) -/

/-- A wrong key length fails every command that takes a key, once its block check has passed or is absent. -/
theorem exec_of_keyLen_ne_of_block_ok {i : Instr} {s : State} (hblk : takesBlock i = true → s.blkLen = 64#16)
    (hi : takesKey i = true) (hkey : s.keyLen ≠ 128#16) : exec i s = .next { s with status := 0x0036#16 } := by
  cases i with
  | kse => exact exec_of_check_error (i := .kse) (s := s) ((checkKey_word s.keyLen).trans (if_neg hkey))
  | encrypt | decrypt => exact exec_of_keyLen_ne hi (hblk rfl) hkey
  | _ => cases hi

/-- Settles O36: the first failing check in the order of R203 decides, and a command without one finishes. -/
theorem errorPriority : Obligations.ErrorPriority := by
  refine ⟨fun s => engineStep_of_illegal, fun i s => ⟨exec_of_blkLen_ne, exec_of_keyLen_ne_of_block_ok, ?_⟩⟩
  intro hlen
  exact ⟨_, exec_of_check_ok (commandChecks_of_lengthsOk hlen), rfl⟩

/-! ### How a completion step ends (60_exceptions.md R201, R207, 10_state.md R29) -/

/-- The word of success (30_encoding.md R74), field by field. -/
theorem doneStatus_fields :
    statusBusy doneStatus = false ∧ statusDone doneStatus = true ∧ statusErr doneStatus = false := by decide

/-- Settles O37: of the two ends of a completion step, the one that writes results has ERR clear. -/
theorem noPartialOutput : Obligations.NoPartialOutput := by
  intro s t hstep herr
  obtain ⟨e, _, rfl⟩ | ⟨i, _, rfl⟩ := engineStep_ends hstep
  · rfl
  · obtain ⟨_, _, hclear⟩ := doneStatus_fields
    exact absurd herr (by simp [hclear])

/-- No command's word raises `LengthMismatch` (60_exceptions.md R201). -/
theorem errStatus_of_commandRaises {w : Word} {e : ErrKind} (he : CommandRaises w e) :
    errStatus e = 0x0026#16 ∨ errStatus e = 0x0036#16 ∨ errStatus e = 0x0046#16 := by
  obtain ⟨_, hblock, hkey, hillegal⟩ := errStatus_value
  cases e with
  | lengthMismatch => exact he.elim
  | invalidBlockLength => exact .inl hblock
  | invalidKeyLength => exact .inr (.inl hkey)
  | illegalCommand => exact .inr (.inr hillegal)

/-- Settles O38: an error's status is of a kind the word can raise, and the other end is success. -/
theorem completionStatus : Obligations.CompletionStatus := by
  intro s t hstep
  obtain ⟨e, he, rfl⟩ | ⟨i, _, rfl⟩ := engineStep_ends hstep
  · obtain ⟨hbusy, hdone, _, _⟩ := errStatus_fields e
    exact ⟨.inr (errStatus_of_commandRaises he), hbusy, hdone⟩
  · obtain ⟨hbusy, hdone, _⟩ := doneStatus_fields
    exact ⟨.inl rfl, hbusy, hdone⟩

/-! ### Idle after an error (60_exceptions.md R208) -/

/-- What a store does to the other registers does not depend on the `STATUS` it finds. -/
theorem store_withStatus (s : State) (w : Word) (r : Reg) (v : Word) :
    State.store { s with status := w } r v =
      { s.store r v with status := (State.store { s with status := w } r v).status } := by
  cases r <;> rfl

theorem memWrite_withStatus {s : State} {w : Word} (hs : s.busy = false)
    (hw : State.busy { s with status := w } = false) (a : Index) (v : Word) :
    memWrite { s with status := w } a v =
      { memWrite s a v with status := (memWrite { s with status := w } a v).status } := by
  cases ha : regAt a with
  | none => rw [memWrite_of_unmapped _ ha, memWrite_of_unmapped s ha]
  | some r =>
    obtain rfl := (regAt_eq_some_iff a r).1 ha
    rw [memWrite_index_of_idle hw, memWrite_index_of_idle hs]
    exact store_withStatus s w r v

/-- Settles O39: the states after an error and after a success are idle and differ in `STATUS` alone, which an accepted
command overwrites. -/
theorem errorIsIdle : Obligations.ErrorIsIdle := by
  intro s e v
  refine ⟨State.raise_busy s e, State.finish_busy s, ?_, fun a => ?_⟩
  · rw [memWrite_cmd_of_idle (State.raise_busy s e), memWrite_cmd_of_idle (State.finish_busy s)]
    rfl
  · exact memWrite_withStatus (s := s.finish) (State.finish_busy s) (State.raise_busy s e) a v

theorem store_status_of_ne_cmd {r : Reg} (h : r ≠ .cmd) (s : State) (v : Word) : (s.store r v).status = s.status := by
  by_cases hr : r = .status
  · subst hr; rfl
  · exact store_reg_of_ne (Ne.symm hr) h

/-- A host write changes `STATUS` only by being accepted as a command. -/
theorem memWrite_status_ne {s : State} {a : Index} {v : Word} (h : (memWrite s a v).status ≠ s.status) :
    a = 0x00#8 ∧ (memWrite s a v).status = 0x0001#16 := by
  obtain ⟨_, e⟩ | ⟨_, _, e⟩ | ⟨_, r, ha, e⟩ := memWrite_cases s a v
  · exact absurd (congrArg State.status e) h
  · exact absurd (congrArg State.status e) h
  · obtain rfl := (regAt_eq_some_iff a r).1 ha
    obtain rfl : r = .cmd := by
      by_contra hr
      rw [e] at h
      exact h (store_status_of_ne_cmd hr s v)
    exact ⟨rfl, congrArg State.status e⟩

/-- Settles O40: an idle step is a host line, and of the lines a write can change `STATUS` only as a command, a reset
clears it, and the others write no register. -/
theorem statusStaysUntilCommand : Obligations.StatusStaysUntilCommand := by
  intro s t hidle hstep hne
  obtain rfl : hostStep s = t := by
    simpa [step_of_host (nextAgent_of_idle hidle), takeTurn_of_idle hidle] using hstep
  obtain ⟨a, v, rest, hscript, e⟩ | ⟨rest, hscript, e⟩ | ⟨hregs, _, _⟩ := hostStep_cases s
  · rw [e] at hne ⊢
    obtain ⟨rfl, hstatus⟩ := memWrite_status_ne (s := { s with script := rest }) hne
    exact .inl ⟨v, rest, hscript, hstatus⟩
  · exact .inr ⟨rest, hscript, congrArg State.status e⟩
  · exact absurd (hregs .status) hne

end Sys2Proof.Machine
end

section
/-! The family 70_reset_and_hazards.md: that nothing stops, what reset and any step leave of the state, that a pending
command ends, and the call of the boundary to its end. -/

namespace Sys2Proof.Machine

/-! ### Every step and every command answers (70_reset_and_hazards.md R238) -/

theorem exec_answers (i : Instr) (s : State) : ∃ t : State, exec i s = .next t := by
  cases hc : commandChecks i s with
  | error e => exact ⟨_, exec_of_check_error hc⟩
  | ok => exact ⟨_, exec_of_check_ok hc⟩

theorem engineStep_answers (s : State) : ∃ t : State, engineStep s = .next t := by
  cases hd : decode s.cmd with
  | ok i => rw [engineStep_of_decode hd]; exact exec_answers i s
  | error e => exact ⟨_, engineStep_of_illegal (by simp [hd])⟩

theorem step_answers (s : State) : ∃ t : State, step s = .next t := by
  cases ha : s.nextAgent with
  | engine => rw [step_of_engine ha]; exact engineStep_answers s.takeTurn
  | host => exact ⟨_, step_of_host ha⟩

/-- Settles O49: a step is the engine's completion or a host line, and each answers. -/
theorem nothingStops : Obligations.NothingStops := ⟨step_answers, exec_answers⟩

/-! ### Reset and the parameters (70_reset_and_hazards.md R230, R231, R233) -/

theorem applyReset_reg (s : State) (r : Reg) : s.applyReset.reg r = 0x0000#16 :=
  calc s.applyReset.reg r = State.reset.reg r := by cases r <;> rfl
    _ = 0x0000#16 := State.reset_reg r

theorem step_reset {s : State} {rest : List HostLine} (h : s.script = .reset :: rest) (hhost : s.nextAgent = .host) :
    step s = .next (State.applyReset { s.takeTurn with script := rest }) := by
  rw [step_of_host hhost, hostStep_reset ((State.takeTurn_script s).trans h)]

/-- Settles O52: the reset line is the reset input, after a turn that touches neither registers nor parameters. -/
theorem resetClearsRegisters : Obligations.ResetClearsRegisters := by
  refine ⟨fun s => ⟨applyReset_reg s, rfl, rfl, rfl, rfl, rfl, rfl⟩, fun s rest hscript hhost => ?_⟩
  exact ⟨_, step_reset hscript hhost, applyReset_reg _, State.takeTurn_params s, State.applyReset_busy _, rfl⟩

theorem engineStep_params {s t : State} (h : engineStep s = .next t) : t.params = s.params := by
  obtain ⟨_, rfl⟩ | ⟨i, _, hexec⟩ := engineStep_cases h
  · rfl
  · exact (exec_sameRest hexec).1

theorem hostStep_params (s : State) : (hostStep s).params = s.params := by
  obtain ⟨a, v, rest, _, e⟩ | ⟨rest, _, e⟩ | ⟨_, hparams, _⟩ := hostStep_cases s
  · rw [e]; exact (memWrite_rest _ a v).1
  · rw [e]; rfl
  · exact hparams

/-- Settles O56: a step is the engine's completion or a host line, and neither writes the parameters. -/
theorem parametersFixed : Obligations.ParametersFixed := by
  intro s t hstep
  obtain ⟨_, hengine⟩ | ⟨_, rfl⟩ := step_cases hstep
  · exact (engineStep_params hengine).trans (State.takeTurn_params s)
  · exact (hostStep_params s.takeTurn).trans (State.takeTurn_params s)

/-! ### A pending command ends (70_reset_and_hazards.md R238, R250) -/

theorem run_succ {s t : State} (h : step s = .next t) (n : Nat) :
    Host.Core.run Sys2Proof.core (n + 1) s = Host.Core.run Sys2Proof.core n t := by
  have hcore : Sys2Proof.core.step s = .next t := h
  simp only [Host.Core.run, hcore]

theorem exec_idle {i : Instr} {s t : State} (h : exec i s = .next t) : t.busy = false := by
  obtain ⟨e, rfl⟩ | rfl := exec_ends h
  · exact State.raise_busy s e
  · exact State.finish_busy _

theorem engineStep_idle {s t : State} (h : engineStep s = .next t) : t.busy = false := by
  obtain ⟨_, rfl⟩ | ⟨i, _, hexec⟩ := engineStep_cases h
  · exact State.raise_busy s .illegalCommand
  · exact exec_idle hexec

theorem hostStep_turns (s : State) : (hostStep s).turns = s.turns := by
  obtain ⟨a, v, rest, _, e⟩ | ⟨rest, _, e⟩ | ⟨_, _, hturns⟩ := hostStep_cases s
  · obtain ⟨_, _, hturns, _⟩ := memWrite_rest { s with script := rest } a v
    rw [e]; exact hturns
  · rw [e]; rfl
  · exact hturns

/-- A step in which the host is let move while a command is pending uses up the turn that said so. -/
theorem exists_turns_eq_host_cons {s : State} (hbusy : s.busy = true) (hhost : s.nextAgent = .host) :
    ∃ ts, s.turns = .host :: ts := by
  unfold State.nextAgent at hhost
  rw [if_pos hbusy] at hhost
  cases hts : s.turns with
  | nil => simp [hts] at hhost
  | cons a ts =>
    obtain rfl : a = .host := by simpa [hts] using hhost
    exact ⟨ts, rfl⟩

/-- A step that leaves a command pending has used up a turn of the host. -/
theorem turns_length_lt_of_busy {s t : State} (hbusy : s.busy = true) (hstep : step s = .next t)
    (htbusy : t.busy = true) : t.turns.length < s.turns.length := by
  obtain ⟨_, hengine⟩ | ⟨hhost, rfl⟩ := step_cases hstep
  · simp [engineStep_idle hengine] at htbusy
  · obtain ⟨ts, hts⟩ := exists_turns_eq_host_cons hbusy hhost
    simp [hostStep_turns, hbusy, hts]

/-- Settles O50, by induction on the number of turns: a step that does not end the command uses one up. -/
theorem pendingEnds : Obligations.PendingEnds := by
  intro s hbusy
  induction hlen : s.turns.length using Nat.strong_induction_on generalizing s with
  | _ m ih =>
    obtain ⟨t, hstep⟩ := step_answers s
    cases htbusy : t.busy with
    | false => exact ⟨1, by omega, t, run_succ hstep 0, htbusy⟩
    | true =>
      have hlt := turns_length_lt_of_busy hbusy hstep htbusy
      obtain ⟨n, hn, u, hrun, hidle⟩ := ih t.turns.length (by omega) t htbusy rfl
      exact ⟨n + 1, by omega, u, (run_succ hstep n).trans hrun, hidle⟩

/-! ### Runs of any length -/

/-- Some number of steps leads from the one state to the other. -/
abbrev Reaches : State → State → Prop := Relation.ReflTransGen fun s t => step s = .next t

theorem exists_run_of_reaches {s t : State} (h : Reaches s t) : ∃ n, Host.Core.run Sys2Proof.core n s = .next t := by
  induction h using Relation.ReflTransGen.head_induction_on with
  | refl => exact ⟨0, rfl⟩
  | head hstep _ ih =>
    obtain ⟨n, hrun⟩ := ih
    exact ⟨n + 1, (run_succ hstep n).trans hrun⟩

theorem reaches_of_run {n : Nat} {s t : State} (h : Host.Core.run Sys2Proof.core n s = .next t) : Reaches s t := by
  induction n generalizing s with
  | zero => obtain rfl : s = t := Host.Outcome.next.inj h; exact .refl
  | succ n ih =>
    obtain ⟨s', hstep⟩ := step_answers s
    exact .head hstep (ih ((run_succ hstep n).symm.trans h))

/-! ### A command issued and waited for (30_encoding.md R80, 70_reset_and_hazards.md R236) -/

/-- While the host waits for a pending command nothing but the turns and the polled word changes until the engine
moves. -/
theorem reaches_engine_turn {s : State} {rest : List HostLine} (hbusy : s.busy = true)
    (hscript : s.script = .wait :: rest) :
    ∃ ts w, Reaches s { s with turns := ts, polled := w } ∧ ts.headD .engine = .engine := by
  induction hts : s.turns generalizing s with
  | nil => exact ⟨s.turns, s.polled, .refl, by rw [hts]; rfl⟩
  | cons a ts ih =>
    cases a with
    | engine => exact ⟨s.turns, s.polled, .refl, by rw [hts]; rfl⟩
    | host =>
      have hhost : s.nextAgent = .host := by simp [State.nextAgent, hbusy, hts]
      have hstep : step s = .next { s with turns := ts, polled := s.status } := by
        rw [step_wait hscript hhost, takeTurn_of_busy hbusy, if_pos hbusy, hts, ← hscript]
        rfl
      obtain ⟨ts', w, hreach, hturn⟩ := ih (s := { s with turns := ts, polled := s.status }) hbusy hscript rfl
      exact ⟨ts', w, .head hstep hreach, hturn⟩

/-- A command issued by an idle host runs on the registers it was issued on, and the host goes on past its `WAIT` with
the command's `STATUS`. -/
theorem reaches_completion {s : State} {i : Instr} {rest : List HostLine} (hidle : s.busy = false)
    (hscript : s.script = lineCommand i :: .wait :: rest) :
    ∃ u, SameInputs s u ∧ u.reads = s.reads ∧ u.calls = s.calls ∧
      ∀ t, exec i u = .next t → Reaches s { t with polled := t.status, script := rest } := by
  have haccept := step_command_of_idle hscript hidle
  obtain ⟨ts, w, hwait, hturn⟩ :=
    reaches_engine_turn (State.accept_busy { s with script := .wait :: rest } (encode i)) rfl
  refine ⟨{ s.accept (encode i) with script := .wait :: rest, turns := ts.tail, polled := w },
    ⟨rfl, rfl, rfl, rfl, rfl⟩, rfl, rfl, fun t hexec => ?_⟩
  have hcomplete : step { s.accept (encode i) with script := .wait :: rest, turns := ts, polled := w } = .next t := by
    refine (step_of_decode ?_ hturn (decode_encode i)).trans hexec
    exact State.accept_busy s (encode i)
  obtain ⟨_, htscript, _⟩ := exec_sameRest hexec
  have htidle := exec_idle hexec
  have hpass : step t = .next { t with polled := t.status, script := rest } := by
    rw [step_wait htscript (nextAgent_of_idle htidle), takeTurn_of_idle htidle, if_neg (by simp [htidle])]
  exact .head haccept (hwait.trans (.head hcomplete (.single hpass)))

/-! ### The answer of a call (70_reset_and_hazards.md R236) -/

section
variable {s : State} {rest : List HostLine}

/-- A list of reads records the registers' values, which no read changes. -/
theorem reaches_reads (rs : List Reg) (hidle : s.busy = false) (hscript : s.script = rs.map lineRd ++ rest) :
    Reaches s { s with script := rest, reads := s.reads ++ rs.map s.reg } := by
  induction rs generalizing s with
  | nil =>
    obtain rfl : s.script = rest := hscript
    simpa using Relation.ReflTransGen.refl
  | cons r rs ih =>
    have hstep : step s = .next { s with script := rs.map lineRd ++ rest, reads := s.reads ++ [s.reg r] } := by
      rw [step_rd hscript (nextAgent_of_idle hidle), takeTurn_of_idle hidle, memRead_index]
      rfl
    have hregs : State.reg { s with script := rs.map lineRd ++ rest, reads := s.reads ++ [s.reg r] } = s.reg := by
      funext r'; cases r' <;> rfl
    have hreach := ih (s := { s with script := rs.map lineRd ++ rest, reads := s.reads ++ [s.reg r] }) hidle rfl
    rw [hregs, List.append_assoc] at hreach
    exact .head hstep hreach

/-- After an error the caller is given its code and reads nothing. -/
theorem reaches_failed {code : BitVec 4} (hidle : s.busy = false) (hscript : s.script = .check :: rest)
    (herr : statusErr s.polled = true) (hcode : statusErrCode s.polled = code) :
    Reaches s { s with script := rest, calls := s.calls ++ [.failed code] } := by
  refine .single ?_
  rw [step_check_failed hscript (nextAgent_of_idle hidle) herr, takeTurn_of_idle hidle, hcode]

theorem toList_quad (q : Quad) : q.toList = [q[0], q[1], q[2], q[3]] :=
  congrArg Vector.toList (quad_eq_words q).symm

/-- When the words read last are those of `Y`, the result is the output block. -/
theorem step_result_output {old : List Word} (hidle : s.busy = false) (hscript : s.script = .result :: rest)
    (hreads : s.reads = old ++ s.y.toList) :
    step s = .next { s with script := rest, calls := s.calls ++ [.result s.output] } := by
  rw [step_result hscript (nextAgent_of_idle hidle) (hreads.trans (congrArg (old ++ ·) (toList_quad s.y))),
    takeTurn_of_idle hidle]
  rfl

/-- After success the caller reads the four words of `Y` and joins them. -/
theorem reaches_result (hidle : s.busy = false) (hscript : s.script = .check :: rest)
    (hclear : statusErr s.polled = false) :
    Reaches s { s with
      script := rest, reads := s.reads ++ s.y.toList, calls := s.calls ++ [.result s.output] } := by
  have hcheck : step s = .next { s with script := macroRdout ++ .result :: rest } := by
    rw [step_check_ok hscript (nextAgent_of_idle hidle) hclear, takeTurn_of_idle hidle]
  have hreads : Reaches { s with script := macroRdout ++ .result :: rest }
      { s with script := .result :: rest, reads := s.reads ++ s.y.toList } := by
    rw [toList_quad]
    exact reaches_reads [.y 0, .y 1, .y 2, .y 3] hidle rfl
  exact .head hcheck (hreads.tail (step_result_output hidle rfl rfl))

end

/-! ### A facade command issued on the loaded registers (44_block_codec.md R173, R174) -/

theorem encrypt_eq_output (s : State) : encrypt s.params s.block s.key = .ok (commandResult .encrypt s).output := by
  rw [encrypt_eq_transform, blockWords_block]; rfl

theorem decrypt_eq_output (s : State) : decrypt s.params s.block s.key = .ok (commandResult .decrypt s).output := by
  rw [decrypt_eq_transform, blockWords_block]; rfl

/-- No command writes the registers of a key, a block or a length. -/
theorem commandResult_inputs (i : Instr) (s : State) :
    (commandResult i s).x = s.x ∧ (commandResult i s).k = s.k ∧ (commandResult i s).blkLen = s.blkLen ∧
      (commandResult i s).keyLen = s.keyLen := by
  cases i <;> exact ⟨rfl, rfl, rfl, rfl⟩

theorem errBlock_fields : statusErr 0x0026#16 = true ∧ statusErrCode 0x0026#16 = 2#4 := by decide

theorem errKey_fields : statusErr 0x0036#16 = true ∧ statusErrCode 0x0036#16 = 3#4 := by decide

/-- Settles O59: the command runs on the registers as issued, and the branch on its `STATUS` gives the caller the error
of the first failing check, or the words of `Y`. -/
theorem callAnswered : Obligations.CallAnswered := by
  intro i s rest hi hidle hscript
  obtain ⟨hblock, hkeyed⟩ : takesBlock i = true ∧ takesKey i = true := by obtain rfl | rfl := hi <;> decide
  obtain ⟨u, ⟨hparams, hx, hk, hblkLen, hkeyLen⟩, hreads, hcalls, hwaited⟩ := reaches_completion hidle hscript
  simp only [hparams, hx, hk, hblkLen, hkeyLen, ← hreads, ← hcalls, State.block, State.key]
  by_cases hblk : u.blkLen = 64#16
  · by_cases hkey : u.keyLen = 128#16
    · obtain ⟨_, _, hclear⟩ := doneStatus_fields
      obtain ⟨n, hrun⟩ := exists_run_of_reaches ((hwaited _ (exec_of_lengths i hblk hkey)).trans
        (reaches_result (State.finish_busy (commandResult i u)) rfl hclear))
      obtain ⟨htx, htk, htblkLen, htkeyLen⟩ := commandResult_inputs i u
      obtain ⟨htparams, _, _, htreads, _, htcalls⟩ := commandResult_sameRest i u
      refine ⟨n, _, hrun, State.finish_busy (commandResult i u), rfl, htx, htk, htblkLen, htkeyLen, htparams,
        fun h => absurd hblk h, fun _ h => absurd hkey h, fun _ _ => ⟨(commandResult i u).output, ?_, ?_,
          congrArg (· ++ _) htcalls, congrArg (· ++ _) htreads⟩⟩
      · rintro rfl
        exact encrypt_eq_output u
      · rintro rfl
        exact decrypt_eq_output u
    · obtain ⟨herr, hcode⟩ := errKey_fields
      obtain ⟨n, hrun⟩ := exists_run_of_reaches ((hwaited _ (exec_of_keyLen_ne hkeyed hblk hkey)).trans
        (reaches_failed (State.raise_busy u .invalidKeyLength) rfl herr hcode))
      exact ⟨n, _, hrun, State.raise_busy u .invalidKeyLength, rfl, rfl, rfl, rfl, rfl, rfl, fun h => absurd hblk h,
        fun _ _ => ⟨rfl, rfl⟩, fun _ h => absurd h hkey⟩
  · obtain ⟨herr, hcode⟩ := errBlock_fields
    obtain ⟨n, hrun⟩ := exists_run_of_reaches ((hwaited _ (exec_of_blkLen_ne hblock hblk)).trans
      (reaches_failed (State.raise_busy u .invalidBlockLength) rfl herr hcode))
    exact ⟨n, _, hrun, State.raise_busy u .invalidBlockLength, rfl, rfl, rfl, rfl, rfl, rfl, fun _ => ⟨rfl, rfl⟩,
      fun h => absurd h hblk, fun h => absurd h hblk⟩

/-! ### The whole sequence of a call (70_reset_and_hazards.md R235, R236) -/

/-- The line that stores a word in a register. -/
def lineStore (w : Reg × Word) : HostLine := lineWr w.1 w.2

/-- The stores of `LDKEY` and `LDBLK` (30_encoding.md R80). -/
def callStores (key : Vector Word 8) (block : Quad) : List (Reg × Word) :=
  (List.finRange 8).map (fun j => (Reg.k j, key[j])) ++ (Reg.keyLen, 0x0080#16) ::
    ((List.finRange 4).map (fun j => (Reg.x j, block[j])) ++ [(Reg.blkLen, 0x0040#16)])

theorem macroCall_eq_stores (i : Instr) (key : Vector Word 8) (block : Quad) :
    macroCall i key block = (callStores key block).map lineStore ++ macroIssue i := rfl

theorem callStores_data (key : Vector Word 8) (block : Quad) :
    ∀ w ∈ callStores key block, w.1.access = .rw ∧ w.1 ≠ .cmd := by
  intro w hw
  simp only [callStores, List.mem_append, List.mem_cons, List.mem_map, List.not_mem_nil, or_false] at hw
  obtain ⟨j, _, rfl⟩ | rfl | ⟨j, _, rfl⟩ | rfl := hw <;> exact ⟨rfl, nofun⟩

theorem callStores_nodup (key : Vector Word 8) (block : Quad) : ((callStores key block).map Prod.fst).Nodup := by
  have hregs : (callStores key block).map Prod.fst =
      (List.finRange 8).map Reg.k ++ Reg.keyLen :: ((List.finRange 4).map Reg.x ++ [Reg.blkLen]) := rfl
  rw [hregs]
  decide

theorem store_sameRest (s : State) (r : Reg) (v : Word) : SameRest s (s.store r v) := by
  cases r <;> exact ⟨rfl, rfl, rfl, rfl, rfl, rfl⟩

section
variable {s : State} {rest : List HostLine}

theorem step_store {w : Reg × Word} (hidle : s.busy = false) (hscript : s.script = lineStore w :: rest) :
    step s = .next (State.store { s with script := rest } w.1 w.2) := by
  rw [step_wr hscript (nextAgent_of_idle hidle), takeTurn_of_idle hidle,
    memWrite_index_of_idle ((busy_withScript s rest).trans hidle)]

/-- A list of stores in different data registers leaves every word where it was put. -/
theorem reaches_stores (ws : List (Reg × Word)) (hdata : ∀ w ∈ ws, w.1.access = .rw ∧ w.1 ≠ .cmd)
    (hnodup : (ws.map Prod.fst).Nodup) (hidle : s.busy = false) (hscript : s.script = ws.map lineStore ++ rest) :
    ∃ t : State, Reaches s t ∧ t.busy = false ∧ t.script = rest ∧ t.params = s.params ∧ t.calls = s.calls ∧
      (∀ w ∈ ws, t.reg w.1 = w.2) ∧ ∀ r, r ∉ ws.map Prod.fst → t.reg r = s.reg r := by
  induction ws generalizing s with
  | nil => exact ⟨s, .refl, hidle, hscript, rfl, rfl, nofun, fun _ _ => rfl⟩
  | cons w ws ih =>
    obtain ⟨⟨hrw, hcmd⟩, hdata⟩ := List.forall_mem_cons.1 hdata
    obtain ⟨hnew, hnodup⟩ := List.nodup_cons.1 hnodup
    obtain ⟨hparams, hscript', _, _, _, hcalls⟩ :=
      store_sameRest { s with script := ws.map lineStore ++ rest } w.1 w.2
    have hstatus := store_status_of_ne_cmd hcmd { s with script := ws.map lineStore ++ rest } w.2
    obtain ⟨t, hreach, htidle, htscript, htparams, htcalls, hwritten, hother⟩ :=
      ih hdata hnodup ((congrArg statusBusy hstatus).trans hidle) hscript'
    refine ⟨t, .head (step_store hidle hscript) hreach, htidle, htscript, htparams.trans hparams,
      htcalls.trans hcalls, List.forall_mem_cons.2 ⟨?_, hwritten⟩, fun r hr => ?_⟩
    · exact (hother w.1 hnew).trans (store_reg_self hrw hcmd)
    · obtain ⟨hne, hr⟩ := List.ne_and_not_mem_of_not_mem_cons hr
      exact (hother r hr).trans ((store_reg_of_ne hne hcmd).trans (reg_withScript s _ r))

end

/-- Settles O60: the stores put the key and the block into `K` and `X` and declare both lengths, so that the command
issued then is answered with the function's value. -/
theorem boundaryCall : Obligations.BoundaryCall := by
  intro i s key block rest hi hidle hscript
  rw [macroCall_eq_stores, List.append_assoc] at hscript
  obtain ⟨t, hload, htidle, htscript, hparams, hcalls, hwritten, _⟩ :=
    reaches_stores (callStores key block) (callStores_data key block) (callStores_nodup key block) hidle hscript
  have hk : t.k = key := Vector.ext fun j hj => hwritten (.k ⟨j, hj⟩, key[j]) (by simp [callStores])
  have hx : t.x = block := Vector.ext fun j hj => hwritten (.x ⟨j, hj⟩, block[j]) (by simp [callStores])
  have hkeyLen : t.keyLen = 128#16 := hwritten (.keyLen, 0x0080#16) (by simp [callStores])
  have hblkLen : t.blkLen = 64#16 := hwritten (.blkLen, 0x0040#16) (by simp [callStores])
  obtain ⟨_, u, hrun, huidle, huscript, hux, huk, _, _, _, _, _, hanswer⟩ :=
    callAnswered i t rest hi htidle htscript
  obtain ⟨b, hencrypt, hdecrypt, hucalls, _⟩ := hanswer hblkLen hkeyLen
  obtain ⟨n, hrun⟩ := exists_run_of_reaches (hload.trans (reaches_of_run hrun))
  refine ⟨n, u, b, hrun, huidle, huscript, huk.trans hk, hux.trans hx, hcalls ▸ hucalls, ?_⟩
  rw [← hparams, ← hk, ← hx]
  exact ⟨hencrypt, hdecrypt⟩

end Sys2Proof.Machine
end
